-- ==== Sys2Proof/Word.lean ====
section
/-! DEFINITION. The machine's words, and the text its instructions are written in.

A register or data value is a mathematical integer, an `Int`, kept in the signed `XLEN`-bit range by
every write (00_scope.md R12, 10_state.md R23). The width is a parameter of the machine, so a word
carries no width in its type, and no name but `Int` (log 2). -/

namespace Sys2Proof

/-- A piece of program text: a line, a register name, a label or an opcode (00_scope.md R10). -/
abbrev Text := List Char

/-- The text a string literal spells. -/
def text (s : String) : Text := s.toList

end Sys2Proof
end

