-- ==== Sys2Proof/Machine/Flags.lean ====
section
/-! DEFINITION. Comparisons. The machine has no flags and no condition codes (10_state.md R41): a
comparison's boolean is a branch outcome (43_jump_unit.md R211 to R216) or the value of `slt` and
`slti` (41_alu.md R159, R167). All comparisons are signed (41_alu.md R171). -/

namespace Sys2Proof.Machine

open Sys2Proof

/-- The outcome of `beq` (R211). -/
def outcomeEq (a b : Int) : Bool := decide (a = b)

/-- The outcome of `bne` (R212). -/
def outcomeNe (a b : Int) : Bool := decide (a ≠ b)

/-- The outcome of `bgt` (R213). -/
def outcomeGt (a b : Int) : Bool := decide (b < a)

/-- The outcome of `bge` (R214). -/
def outcomeGe (a b : Int) : Bool := decide (b ≤ a)

/-- The outcome of `blt` (R215). -/
def outcomeLt (a b : Int) : Bool := decide (a < b)

/-- The outcome of `ble` (R216). -/
def outcomeLe (a b : Int) : Bool := decide (a ≤ b)

/-- The value of set-less-than (41_alu.md R159, R167). -/
def setLess (a b : Int) : Int := if a < b then 1 else 0

end Sys2Proof.Machine
end

