-- ==== Sys2Proof/Config.lean ====
section
/-! DEFINITION. The parameters an instance of the core fixes (00_scope.md R5 to R8), the reference
instance, and the free values: what the spec leaves to the outside world or leaves unspecified. -/

namespace Sys2Proof

/-- `LA_SCALE` (00_scope.md R8, D17, C2): what `la` multiplies a data label's word index by. -/
inductive LaScale where
  | one
  | wordSize
  deriving DecidableEq, Repr

/-- `DIV_ROUND` (00_scope.md R8, D12): how `div` rounds an inexact quotient. -/
inductive DivRound where
  | floor
  | trunc
  deriving DecidableEq, Repr

/-- `UPDATE_KEY` (46_cpu.md R285, D26, C3): the pc that keys the predictor's update. -/
inductive UpdateKey where
  | postPc
  | prePc
  deriving DecidableEq, Repr

/-- The configuration: every parameter of 00_scope.md R5 to R8. It is fixed for a machine and is no
state of the spec's (10_state.md R20); the model keeps it in `State.cfg`, which nothing writes, so
that a statement about every state is a statement about every instance (log 1). -/
structure Config where
  /-- `XLEN`, the register width in bits (R5). -/
  xlen : Nat
  /-- `WORD_SIZE`, the divisor that turns a base register into a word index (R6). -/
  wordSize : Nat
  /-- `CTR_BITS`, the width of a saturating counter (R7). -/
  ctrBits : Nat
  /-- `KEY_BITS`: a history table has `2 ^ KEY_BITS` counters (R7). -/
  keyBits : Nat
  /-- `HIST_BITS`, the width of the history register (R7). -/
  histBits : Nat
  /-- `GPR_NAMES`, the general registers; their order is the order of `State.regs` (R8, R21). -/
  gprNames : List Text
  /-- `ZERO_NAME` (R8, 10_state.md R22). -/
  zeroName : Text
  /-- `SYS_ARG_REG` (R8, 44_syscall_unit.md R230). -/
  sysArgReg : Text
  /-- `SYS_RES_REG` (R8, 44_syscall_unit.md R230). -/
  sysResReg : Text
  /-- `MNEMONICS`: the opcode strings, in the order of the op ids 0 to 42 (R8, 30_encoding.md R104). -/
  mnemonics : List Text
  /-- `LA_SCALE` (R8). -/
  laScale : LaScale
  /-- `DIV_ROUND` (R8). -/
  divRound : DivRound
  /-- `UPDATE_KEY` (R8). -/
  updateKey : UpdateKey
  deriving DecidableEq, Repr

/-- The 31 general register names of the reference instance (10_state.md R21). -/
def Config.referenceGprNames : List Text :=
  ["$at", "$v0", "$v1", "$a0", "$a1", "$a2", "$a3", "$t0", "$t1", "$t2", "$t3", "$t4", "$t5",
    "$t6", "$t7", "$s0", "$s1", "$s2", "$s3", "$s4", "$s5", "$s6", "$s7", "$t8", "$t9", "$k0",
    "$k1", "$gp", "$sp", "$fp", "$ra"].map text

/-- The 43 opcode strings of the reference instance, by op id (30_encoding.md R104). -/
def Config.referenceMnemonics : List Text :=
  ["nop", "add", "sub", "mult", "div", "and", "or", "xor", "not", "slt", "sllv", "srlv", "srav",
    "addi", "andi", "ori", "xori", "slti", "sll", "srl", "sra", "lw", "sw", "li", "la", "lui",
    "mfhi", "mflo", "mthi", "mtlo", "move", "beq", "bne", "bgt", "bge", "blt", "ble", "j",
    "print_int", "print_char", "read_int", "read_char", "exit"].map text

/-- The reference instance (00_scope.md R5 to R8). -/
def Config.reference : Config where
  xlen := 32
  wordSize := 4
  ctrBits := 2
  keyBits := 4
  histBits := 2
  gprNames := referenceGprNames
  zeroName := text "$zero"
  sysArgReg := text "$a0"
  sysResReg := text "$v0"
  mnemonics := referenceMnemonics
  laScale := .one
  divRound := .floor
  updateKey := .postPc

/-- FREE VALUE. The `n`-th answer of the input provider to `next_int`: any integer
(44_syscall_unit.md R233, R236; U7; log 6). -/
opaque Config.answerInt : Nat → Int

/-- FREE VALUE. The `n`-th answer of the input provider to `next_char`, as a character code: any
non-negative integer (44_syscall_unit.md R234, D35; log 6). -/
opaque Config.answerChar : Nat → Nat

/-- FREE VALUE. What `last_pred` holds while `last_valid` is false (10_state.md R46, V18; log 9). -/
opaque Config.stalePred : Nat → Bool

/-- FREE VALUE. What `last_outcome` holds while `last_valid` is false (R46, V18; log 9). -/
opaque Config.staleOutcome : Nat → Bool

/-- FREE VALUE. What `last_addr` is written from, with a wrap into the register range, while `last_valid`
is false (R46, V18; the wrap is the model's choice, log 9). -/
opaque Config.staleAddr : Nat → Int

end Sys2Proof
end

