-- ==== Sys2Proof/Machine/Arith.lean ====
section
/-! DEFINITION. Integer arithmetic and bit patterns of `XLEN` bits (00_scope.md R12, R13; 41_alu.md
R171). The width `n` is `XLEN` throughout. -/

namespace Sys2Proof.Machine

open Sys2Proof

/-- `2 ^ e`, as an integer (R12). -/
def pow2 (e : Nat) : Int := ((2 ^ e : Nat) : Int)

/-- `MIN` (R5). -/
def minVal (n : Nat) : Int := -pow2 (n - 1)

/-- `MAX` (R5). -/
def maxVal (n : Nat) : Int := pow2 (n - 1) - 1

/-- `wrap` (R12): the value in the signed range that is congruent modulo `2 ^ XLEN`. -/
def wrap (n : Nat) (v : Int) : Int := (v - minVal n) % pow2 n + minVal n

/-- `fdiv` (R12): division rounded toward minus infinity. -/
def fdiv (a b : Int) : Int := a.fdiv b

/-- `tdiv` (R12): division rounded toward zero. -/
def tdiv (a b : Int) : Int := a.tdiv b

/-- `clamp` (R12). -/
def clamp (v lo hi : Int) : Int := if v < lo then lo else if hi < v then hi else v

/-- `ubits` (R13): the unsigned value of a value's two's-complement pattern. -/
def ubits (n : Nat) (v : Int) : Nat := (v % pow2 n).toNat

/-- `sbits` (R13): the signed value of a pattern. -/
def sbits (n : Nat) (u : Nat) : Int := wrap n u

/-- `b2i` (00_scope.md R15). -/
def b2i (b : Bool) : Nat := if b then 1 else 0

/-- Bitwise and of two values' patterns (41_alu.md R155). -/
def andBits (n : Nat) (a b : Int) : Int := sbits n (ubits n a &&& ubits n b)

/-- Bitwise or of two values' patterns (R156). -/
def orBits (n : Nat) (a b : Int) : Int := sbits n (ubits n a ||| ubits n b)

/-- Bitwise exclusive or of two values' patterns (R157). -/
def xorBits (n : Nat) (a b : Int) : Int := sbits n (ubits n a ^^^ ubits n b)

/-- Bitwise not of a value's pattern: every one of the `XLEN` bits inverted (R158). -/
def notBits (n : Nat) (a : Int) : Int := sbits n (2 ^ n - 1 - ubits n a)

/-- A shift amount, `v emod XLEN` (R160, D14). -/
def shiftAmount (n : Nat) (v : Int) : Nat := (v % (n : Int)).toNat

/-- Shift left: `ubits(a) * 2 ^ sa`, before the wrap of the write (R160, R168). -/
def shiftLeft (n : Nat) (a amount : Int) : Int := (ubits n a : Int) * pow2 (shiftAmount n amount)

/-- Logical shift right (R161, R169). -/
def shiftRightLogical (n : Nat) (a amount : Int) : Int :=
  sbits n (ubits n a / 2 ^ shiftAmount n amount)

/-- Arithmetic shift right (R162, R170). -/
def shiftRightArith (n : Nat) (a amount : Int) : Int := fdiv a (pow2 (shiftAmount n amount))

/-- The quotient of `div`, for a divisor that is not 0 (R154). -/
def quotient (round : DivRound) (a b : Int) : Int :=
  match round with
  | .floor => fdiv a b
  | .trunc => tdiv a b

/-- What `mult` writes to `hi` (R153). -/
def productHigh (n : Nat) (a b : Int) : Int := fdiv (a * b) (pow2 n)

/-- What `mult` writes to `lo`, before the wrap of the write (R153). -/
def productLow (n : Nat) (a b : Int) : Int := a * b % pow2 n

end Sys2Proof.Machine
end

