-- ==== Sys2Proof/Syntax.lean ====
section
/-! DEFINITION. The instructions: one constructor per row of the opcode table, each a record of
30_encoding.md R90. -/

namespace Sys2Proof

/-- An operand (30_encoding.md R90, R101): `Int(v)`, an unbounded integer, or `Sym(s)`, a lower-case
register or label name. -/
inductive Operand where
  | int (v : Int)
  | sym (name : Text)
  deriving DecidableEq, Repr

/-- The line kinds (30_encoding.md R91). -/
inductive Kind where
  | sectionDirective
  | data
  | label
  | op
  deriving DecidableEq, Repr

/-- An instruction record (30_encoding.md R90). The constructor stands for the record's kind and
operation, hence for its opcode string. An operation keeps the operand list the decoder stored,
whatever its length and kinds: the executing unit checks it, not the decoder (R106). -/
inductive Instr where
  /-- Section directive; the keyword with its dot, lower-cased (R95, R140). -/
  | sectionLine (keyword : Text)
  /-- `label: .space count`; the inline data is `count` zeros (R96, R141). -/
  | spaceLine (label : Text) (count : Nat)
  /-- `label: .word v1 v2 ...` (R97, R142). -/
  | wordLine (label : Text) (values : List Int)
  /-- A bare label (R98, R143). -/
  | labelLine (label : Text)
  | nop (label : Option Text) (ops : List Operand)
  | add (label : Option Text) (ops : List Operand)
  | sub (label : Option Text) (ops : List Operand)
  | mult (label : Option Text) (ops : List Operand)
  | div (label : Option Text) (ops : List Operand)
  | and (label : Option Text) (ops : List Operand)
  | or (label : Option Text) (ops : List Operand)
  | xor (label : Option Text) (ops : List Operand)
  | not (label : Option Text) (ops : List Operand)
  | slt (label : Option Text) (ops : List Operand)
  | sllv (label : Option Text) (ops : List Operand)
  | srlv (label : Option Text) (ops : List Operand)
  | srav (label : Option Text) (ops : List Operand)
  | addi (label : Option Text) (ops : List Operand)
  | andi (label : Option Text) (ops : List Operand)
  | ori (label : Option Text) (ops : List Operand)
  | xori (label : Option Text) (ops : List Operand)
  | slti (label : Option Text) (ops : List Operand)
  | sll (label : Option Text) (ops : List Operand)
  | srl (label : Option Text) (ops : List Operand)
  | sra (label : Option Text) (ops : List Operand)
  | lw (label : Option Text) (ops : List Operand)
  | sw (label : Option Text) (ops : List Operand)
  | li (label : Option Text) (ops : List Operand)
  | la (label : Option Text) (ops : List Operand)
  | lui (label : Option Text) (ops : List Operand)
  | mfhi (label : Option Text) (ops : List Operand)
  | mflo (label : Option Text) (ops : List Operand)
  | mthi (label : Option Text) (ops : List Operand)
  | mtlo (label : Option Text) (ops : List Operand)
  | move (label : Option Text) (ops : List Operand)
  | beq (label : Option Text) (ops : List Operand)
  | bne (label : Option Text) (ops : List Operand)
  | bgt (label : Option Text) (ops : List Operand)
  | bge (label : Option Text) (ops : List Operand)
  | blt (label : Option Text) (ops : List Operand)
  | ble (label : Option Text) (ops : List Operand)
  | j (label : Option Text) (ops : List Operand)
  | printInt (label : Option Text) (ops : List Operand)
  | printChar (label : Option Text) (ops : List Operand)
  | readInt (label : Option Text) (ops : List Operand)
  | readChar (label : Option Text) (ops : List Operand)
  | exit (label : Option Text) (ops : List Operand)
  /-- An operation whose opcode string names none of the operations (R104, R145). -/
  | unknownOp (label : Option Text) (opcode : Text) (ops : List Operand)
  deriving DecidableEq, Repr

end Sys2Proof
end

