-- ==== Sys2Proof/Machine/State.lean ====
section
/-! DEFINITION. The machine's state, the reasons a step can stop, and the state after reset
(10_state.md R20, R46). -/

namespace Sys2Proof.Machine

open Sys2Proof

/-- One Branch History Table (10_state.md R35): its counters by key, and its two tallies. -/
structure Bht where
  ctr : List Nat
  correct : Nat
  incorrect : Nat
  deriving DecidableEq, Repr

/-- An event of the output sink (44_syscall_unit.md R231, R232, R236). -/
inductive Event where
  | printInt (v : Int)
  | printChar (v : Int)
  deriving DecidableEq, Repr

/-- A label map (10_state.md R30, R33): labels with their indices, in the order they were first set. -/
abbrev LabelMap := List (Text × Nat)

/-- The state (10_state.md R20), and four fields of the model's own: `cfg`, `draws`, `latchDraws`,
`inputSilent`. -/
structure State where
  /-- The configuration; the model's own field, written by nothing (R20, log 1). -/
  cfg : Config
  /-- The general registers, in the order of `cfg.gprNames` (R21). -/
  regs : List Int
  /-- The program counter, a line index (R25). -/
  pc : Int
  /-- The accumulator `hi` (R27). -/
  hi : Int
  /-- The accumulator `lo` (R27). -/
  lo : Int
  /-- The data segment, by word index (R29). -/
  dmem : List Int
  /-- The data label map, label to word index (R30). -/
  dlabel : LabelMap
  /-- The loaded instruction list (R32). -/
  prog : List Instr
  /-- The code label map, label to line index (R33). -/
  clabel : LabelMap
  /-- The program-start index `text_start` (R34). -/
  textStart : Nat
  /-- The history register, as an unsigned integer (R38). -/
  hist : Nat
  /-- The Branch History Tables (R38). -/
  bhts : List Bht
  /-- Display latch: a Jump-Unit opcode has completed since the last reset (R40). -/
  lastValid : Bool
  /-- Display latch: the last prediction (R40). -/
  lastPred : Bool
  /-- Display latch: the last outcome (R40). -/
  lastOutcome : Bool
  /-- Display latch: the pre-branch pc of the last branch (R40); of the width of a register (DESIGN
  CHOICE, log 9). -/
  lastAddr : Int
  /-- The host's output event list (R45, 44_syscall_unit.md R236). -/
  out : List Event
  /-- How many answers the input provider has given; the model's own field (log 6). -/
  draws : Nat
  /-- How many times the unspecified latch values were drawn; the model's own field (log 9). -/
  latchDraws : Nat
  /-- Whether the input provider never answers; the model's own field (44_syscall_unit.md R233,
  log 7). -/
  inputSilent : Bool
  deriving DecidableEq, Repr

/-- Why an operation stops with its error returned to the host and the state unchanged
(60_exceptions.md R300, R314). The host's outcome carries no state with a fault: the state is the one
before. -/
inductive Fault where
  /-- A name that is no register, or an integer, where a register is needed (R302); raised by register
  reads and writes. Safe: the spec's own fault. -/
  | unknownRegister (o : Operand)
  /-- A label that is not declared, or an integer, where a label is needed (R303); raised by taken
  branches and by `la`. Safe: the spec's own fault. -/
  | unknownLabel (o : Operand)
  /-- A word index outside the data segment (R304); raised by `lw` and `sw`. Safe: the spec's own
  fault. -/
  | addressOutOfRange (addr : Int)
  /-- An opcode no functional unit declares (R305); raised by an unknown operation. Safe: the spec's
  own fault. -/
  | unknownOperation (opcode : Text)
  /-- The reserved opcode `exit` (R308). Safe: the spec's own fault. -/
  | notImplemented (opcode : Text)
  /-- A zero divisor (R309); raised by `div`. Safe: the spec's own fault. -/
  | divideByZero
  /-- Operands that do not fit the operation's format (R310); raised by every operation. Safe: the
  spec's own fault. -/
  | badOperands
  /-- A line no recognizer matches (R301); raised by `LOAD`. Safe: the spec's own fault. -/
  | decodeError (line : Text)
  /-- No `.text` marker (R306); raised by `load`. Safe: the spec's own fault. -/
  | missingTextSection
  /-- The first `.text` marker is the last line (R307); raised by `load`. Safe: the spec's own fault. -/
  | emptyProgram
  /-- Two lines carry one label (R311); raised by `load`. Safe: the spec's own fault. -/
  | duplicateLabel (label : Text)
  /-- The input provider never answers, so the step never completes: the spec's treatment is "stuck"
  (U7, 44_syscall_unit.md R233); raised by `read_int` and `read_char`. Safe: the machine has no step. -/
  | inputNeverAnswers
  deriving DecidableEq, Repr

/-- What the model gives no meaning. -/
inductive Refusal where
  /-- An instruction whose meaning is not written yet; raised by `exec`'s arms only. Safe. -/
  | notModelled (mnemonic : String)
  /-- A program of more than `MAX` lines, which the spec has the model refuse (00_scope.md R9, D32);
  raised by `load`. Safe. -/
  | programTooLong
  /-- A fetch at a negative pc, which no run reaches (10_state.md R26) and for which the spec gives no
  line; raised by `step` (log 13). Safe. -/
  | negativePc
  deriving DecidableEq, Repr

/-- A BHT with every counter and both tallies 0 (45_branch_predictor.md R245). -/
def Bht.zero (c : Config) : Bht where
  ctr := List.replicate (2 ^ c.keyBits) 0
  correct := 0
  incorrect := 0

/-- The power-on state of an instance (10_state.md R46, 70_reset_and_hazards.md R333). The three
latches the spec leaves unspecified are false, false and 0 (DESIGN CHOICE, log 9), the output list is
empty (DESIGN CHOICE, log 8), and the model's own fields are 0, 0 and false (log 6, log 7, log 9). -/
def State.powerOn (c : Config) : State where
  cfg := c
  regs := List.replicate c.gprNames.length 0
  pc := 0
  hi := 0
  lo := 0
  dmem := []
  dlabel := []
  prog := []
  clabel := []
  textStart := 0
  hist := 0
  bhts := List.replicate (2 ^ c.histBits) (Bht.zero c)
  lastValid := false
  lastPred := false
  lastOutcome := false
  lastAddr := 0
  out := []
  draws := 0
  latchDraws := 0
  inputSilent := false

/-- The machine right after reset, in the reference instance (10_state.md R46, R333; log 1). -/
def State.reset : State := State.powerOn Config.reference

end Sys2Proof.Machine
end

