-- ==== Sys2Proof/Machine/Ops.lean ====
section
/-! DEFINITION. The named operations over registers, data segment and label maps (00_scope.md R14),
the wrap of every write, raising an error, and the end of a completed line. -/

namespace Sys2Proof.Machine

open Sys2Proof

/-! ### Raising an error, and completing a line -/

/-- Error entry, the machine's one exceptional mechanism (60_exceptions.md R314): the operation stops,
nothing is saved, no mode changes and no address is vectored to; the error is returned and the state is
the one before (log 5). There is no return from it inside the machine (R315): the host issues the next
operation, and a further step runs the same line again. -/
def raise (e : Fault) : Host.Outcome State Fault Refusal := .fault e

/-- `pc <- v` (R14): the write of the program counter, with its wrap. -/
def State.setPc (s : State) (v : Int) : State := { s with pc := wrap s.cfg.xlen v }

/-- `pc <- pc + 1`, the CPU's `increment` of the program counter (10_state.md R28). -/
def State.advance (s : State) : State := s.setPc (s.pc + 1)

/-- Case 3 of the dispatch (46_cpu.md R278): a unit's `execute`, then `pc <- pc + 1`; if `execute`
raises, the error is raised and nothing has changed (R281). -/
def complete (executed : Except Fault State) : Host.Outcome State Fault Refusal :=
  match executed with
  | .ok s => .next s.advance
  | .error e => raise e

/-! ### Registers -/

/-- The place of a general register's value in `State.regs` (10_state.md R21). -/
def regIndex (c : Config) (name : Text) : Option Nat := c.gprNames.idxOf? name

/-- `x[name]` (00_scope.md R14, 10_state.md R22, R24): the zero register reads 0, a name that is no
register raises UnknownRegister, and so does an integer operand (R24, D11). A state outside the
invariant that lacks the place reads 0 there (log 12). -/
def readReg (s : State) : Operand → Except Fault Int
  | .int v => .error (.unknownRegister (.int v))
  | .sym name =>
    if name = s.cfg.zeroName then .ok 0
    else match regIndex s.cfg name with
      | some k => .ok (s.regs.getD k 0)
      | none => .error (.unknownRegister (.sym name))

/-- Write a general register by its place, with the wrap of every write (10_state.md R23). -/
def State.setReg (s : State) (k : Nat) (v : Int) : State :=
  { s with regs := s.regs.set k (wrap s.cfg.xlen v) }

/-- `x[name] <- v` (00_scope.md R14, 10_state.md R22 to R24): a write to the zero register is dropped
without an error; an undefined name and an integer operand raise UnknownRegister. -/
def writeReg (s : State) (o : Operand) (v : Int) : Except Fault State :=
  match o with
  | .int i => .error (.unknownRegister (.int i))
  | .sym name =>
    if name = s.cfg.zeroName then .ok s
    else match regIndex s.cfg name with
      | some k => .ok (s.setReg k v)
      | none => .error (.unknownRegister (.sym name))

/-- `increment(name)` (10_state.md R28): get and set. -/
def increment (s : State) (o : Operand) : Except Fault State :=
  (readReg s o).bind fun v => writeReg s o (v + 1)

/-- `decrement(name)` (10_state.md R28): get and set. -/
def decrement (s : State) (o : Operand) : Except Fault State :=
  (readReg s o).bind fun v => writeReg s o (v - 1)

/-- `hi <- v` (10_state.md R27). -/
def State.setHi (s : State) (v : Int) : State := { s with hi := wrap s.cfg.xlen v }

/-- `lo <- v` (10_state.md R27). -/
def State.setLo (s : State) (v : Int) : State := { s with lo := wrap s.cfg.xlen v }

/-! ### Data segment -/

/-- Whether a word index lies in a data segment (20_memory.md R63, D19). -/
def inData (m : List Int) (addr : Int) : Bool := decide (0 ≤ addr) && decide (addr < m.length)

/-- `MemRead(addr, 1)` (20_memory.md R63). -/
def memRead (s : State) (addr : Int) : Except Fault Int :=
  if inData s.dmem addr then .ok (s.dmem.getD addr.toNat 0) else .error (.addressOutOfRange addr)

/-- Overwrite one word of the data segment, with the wrap of a word entering it (20_memory.md R73). -/
def State.setWord (s : State) (k : Nat) (v : Int) : State :=
  { s with dmem := s.dmem.set k (wrap s.cfg.xlen v) }

/-- `MemWrite(addr, 1, v)` (20_memory.md R63, R73): the word is stored wrapped, and a store never
extends the segment. -/
def memWrite (s : State) (addr : Int) (v : Int) : Except Fault State :=
  if inData s.dmem addr then .ok (s.setWord addr.toNat v) else .error (.addressOutOfRange addr)

/-- The effective address of base plus word offset (20_memory.md R62). -/
def effectiveAddress (c : Config) (base offset : Int) : Int := fdiv base c.wordSize + offset

/-- The canonical form of a data segment: every word in the signed range (20_memory.md R73). A list of
words of a given length has no second form (log 3). -/
def Memory.wf (c : Config) (m : List Int) : Bool :=
  m.all fun v => decide (minVal c.xlen ≤ v) && decide (v ≤ maxVal c.xlen)

/-! ### Labels -/

/-- `map[label] <- index`: a label already there is set anew in its place. -/
def LabelMap.put : LabelMap → Text → Nat → LabelMap
  | [], label, index => [(label, index)]
  | (l, k) :: rest, label, index =>
    if l = label then (l, index) :: rest else (l, k) :: LabelMap.put rest label index

/-- A label operand looked up in a map; an integer, and a label that is not there, raise UnknownLabel
(42_memory_unit.md R194, 43_jump_unit.md R218, D11, D20). -/
def lookupLabel (m : LabelMap) : Operand → Except Fault Nat
  | .int v => .error (.unknownLabel (.int v))
  | .sym name =>
    match m.lookup name with
    | some k => .ok k
    | none => .error (.unknownLabel (.sym name))

/-- The state after `set_data_by_label(label, values)` (10_state.md R31): the wrapped words appended, the
label recorded at the length the segment had. -/
def appendData (s : State) (label : Text) (values : List Int) : State :=
  { s with
    dmem := s.dmem ++ values.map (wrap s.cfg.xlen)
    dlabel := LabelMap.put s.dlabel label s.dmem.length }

/-- `set_data_by_label(label, values) -> base_address` (10_state.md R31): the state after it, and the base
address it returns. -/
def setDataByLabel (s : State) (label : Text) (values : List Int) : State × Nat :=
  (appendData s label values, s.dmem.length)

/-! ### Free values -/

/-- Go on to the input provider's next answer (log 6). -/
def State.drawn (s : State) : State := { s with draws := s.draws + 1 }

end Sys2Proof.Machine
end

