-- ==== Sys2Proof/Machine/Operands.lean ====
section
/-! DEFINITION. The operand formats (30_encoding.md R106), each checked before anything else of the
step (60_exceptions.md R313 (1)): a wrong count, or a name where an integer is required, is
BadOperands. A register or label position takes any operand: an integer there fails when it is looked
up (R106). -/

namespace Sys2Proof.Machine

open Sys2Proof

/-- An immediate as it is used: the literal reduced to `XLEN` bits (30_encoding.md R107). -/
def imm (c : Config) (v : Int) : Int := wrap c.xlen v

/-- F0: no operands. -/
def formatF0 : List Operand → Except Fault Unit
  | [] => .ok ()
  | _ => .error .badOperands

/-- FR1, FJ: one operand. -/
def format1 : List Operand → Except Fault Operand
  | [a] => .ok a
  | _ => .error .badOperands

/-- FR2, FRS2, FRL: two operands, neither of them an immediate. -/
def format2 : List Operand → Except Fault (Operand × Operand)
  | [a, b] => .ok (a, b)
  | _ => .error .badOperands

/-- FR3, FB: three operands, none of them an immediate. -/
def format3 : List Operand → Except Fault (Operand × Operand × Operand)
  | [a, b, c] => .ok (a, b, c)
  | _ => .error .badOperands

/-- FRI: a register and an immediate. -/
def formatFRI : List Operand → Except Fault (Operand × Int)
  | [a, .int v] => .ok (a, v)
  | _ => .error .badOperands

/-- FI: two registers and an immediate. -/
def formatFI : List Operand → Except Fault (Operand × Operand × Int)
  | [a, b, .int v] => .ok (a, b, v)
  | _ => .error .badOperands

/-- FM: a register, a word offset and a base register. -/
def formatFM : List Operand → Except Fault (Operand × Int × Operand)
  | [a, .int v, b] => .ok (a, v, b)
  | _ => .error .badOperands

end Sys2Proof.Machine
end

