-- ==== Sys2Proof/Machine/Alu.lean ====
section
/-! DEFINITION. The Arithmetic/Logic Unit (41_alu.md R150 to R170). Every operation checks its
operands, reads its sources in operand order, computes, and makes its one write (R150). -/

namespace Sys2Proof.Machine

open Sys2Proof

/-- Format FR3 (R150): `x[rd] <- f x[rs] x[rt]`, where `f` may itself raise. -/
def alu3 (f : Int → Int → Except Fault Int) (ops : List Operand) (s : State) : Except Fault State :=
  (format3 ops).bind fun p =>
    (readReg s p.2.1).bind fun a => (readReg s p.2.2).bind fun b =>
      (f a b).bind fun v => writeReg s p.1 v

/-- Format FI (R150): `x[rd] <- f x[rs] (imm o3)`. -/
def aluImm (f : Int → Int → Int) (ops : List Operand) (s : State) : Except Fault State :=
  (formatFI ops).bind fun p =>
    (readReg s p.2.1).bind fun a => writeReg s p.1 (f a (imm s.cfg p.2.2))

/-- Format FR2: `x[rd] <- f x[rs]` (R158; 42_memory_unit.md R200). -/
def unary (f : Int → Int) (ops : List Operand) (s : State) : Except Fault State :=
  (format2 ops).bind fun p => (readReg s p.2).bind fun a => writeReg s p.1 (f a)

/-- `add` (R151). -/
def execAdd (ops : List Operand) (s : State) : Host.Outcome State Fault Refusal :=
  complete (alu3 (fun a b => .ok (a + b)) ops s)

/-- `sub` (R152). -/
def execSub (ops : List Operand) (s : State) : Host.Outcome State Fault Refusal :=
  complete (alu3 (fun a b => .ok (a - b)) ops s)

/-- `mult` (R153): the exact product, split into `hi` and `lo`; no general register is written. -/
def execMult (ops : List Operand) (s : State) : Host.Outcome State Fault Refusal :=
  complete <| (format2 ops).bind fun p =>
    (readReg s p.1).bind fun a => (readReg s p.2).bind fun b =>
      .ok ((s.setHi (productHigh s.cfg.xlen a b)).setLo (productLow s.cfg.xlen a b))

/-- `div` (R154): the quotient, rounded as the configuration says; a zero divisor raises DivideByZero;
`hi` and `lo` are not written. -/
def execDiv (ops : List Operand) (s : State) : Host.Outcome State Fault Refusal :=
  complete (alu3 (fun a b =>
    if b = 0 then .error .divideByZero else .ok (quotient s.cfg.divRound a b)) ops s)

/-- `and` (R155). -/
def execAnd (ops : List Operand) (s : State) : Host.Outcome State Fault Refusal :=
  complete (alu3 (fun a b => .ok (andBits s.cfg.xlen a b)) ops s)

/-- `or` (R156). -/
def execOr (ops : List Operand) (s : State) : Host.Outcome State Fault Refusal :=
  complete (alu3 (fun a b => .ok (orBits s.cfg.xlen a b)) ops s)

/-- `xor` (R157). -/
def execXor (ops : List Operand) (s : State) : Host.Outcome State Fault Refusal :=
  complete (alu3 (fun a b => .ok (xorBits s.cfg.xlen a b)) ops s)

/-- `not` (R158). -/
def execNot (ops : List Operand) (s : State) : Host.Outcome State Fault Refusal :=
  complete (unary (notBits s.cfg.xlen) ops s)

/-- `slt` (R159). -/
def execSlt (ops : List Operand) (s : State) : Host.Outcome State Fault Refusal :=
  complete (alu3 (fun a b => .ok (setLess a b)) ops s)

/-- `sllv` (R160). -/
def execSllv (ops : List Operand) (s : State) : Host.Outcome State Fault Refusal :=
  complete (alu3 (fun a b => .ok (shiftLeft s.cfg.xlen a b)) ops s)

/-- `srlv` (R161). -/
def execSrlv (ops : List Operand) (s : State) : Host.Outcome State Fault Refusal :=
  complete (alu3 (fun a b => .ok (shiftRightLogical s.cfg.xlen a b)) ops s)

/-- `srav` (R162). -/
def execSrav (ops : List Operand) (s : State) : Host.Outcome State Fault Refusal :=
  complete (alu3 (fun a b => .ok (shiftRightArith s.cfg.xlen a b)) ops s)

/-- `addi` (R163). -/
def execAddi (ops : List Operand) (s : State) : Host.Outcome State Fault Refusal :=
  complete (aluImm (fun a b => a + b) ops s)

/-- `andi` (R164): the immediate is signed. -/
def execAndi (ops : List Operand) (s : State) : Host.Outcome State Fault Refusal :=
  complete (aluImm (andBits s.cfg.xlen) ops s)

/-- `ori` (R165). -/
def execOri (ops : List Operand) (s : State) : Host.Outcome State Fault Refusal :=
  complete (aluImm (orBits s.cfg.xlen) ops s)

/-- `xori` (R166). -/
def execXori (ops : List Operand) (s : State) : Host.Outcome State Fault Refusal :=
  complete (aluImm (xorBits s.cfg.xlen) ops s)

/-- `slti` (R167). -/
def execSlti (ops : List Operand) (s : State) : Host.Outcome State Fault Refusal :=
  complete (aluImm setLess ops s)

/-- `sll` (R168). -/
def execSll (ops : List Operand) (s : State) : Host.Outcome State Fault Refusal :=
  complete (aluImm (shiftLeft s.cfg.xlen) ops s)

/-- `srl` (R169). -/
def execSrl (ops : List Operand) (s : State) : Host.Outcome State Fault Refusal :=
  complete (aluImm (shiftRightLogical s.cfg.xlen) ops s)

/-- `sra` (R170). -/
def execSra (ops : List Operand) (s : State) : Host.Outcome State Fault Refusal :=
  complete (aluImm (shiftRightArith s.cfg.xlen) ops s)

end Sys2Proof.Machine
end

