-- ==== Sys2Proof/Machine/Predictor.lean ====
section
/-! DEFINITION. The branch predictor (45_branch_predictor.md R240 to R252): the History Table and the
Combined Predictor. -/

namespace Sys2Proof.Machine

open Sys2Proof

/-- `CTR_MAX` (00_scope.md R7). -/
def ctrMax (c : Config) : Nat := 2 ^ c.ctrBits - 1

/-- `key(address)` (R241): the Euclidean remainder modulo `2 ^ KEY_BITS`. -/
def predictorKey (c : Config) (address : Int) : Nat := (address % pow2 c.keyBits).toNat

/-- `taken(c)` (R242): the counter exceeds half of `CTR_MAX`, that is, reaches `2 ^ (CTR_BITS - 1)`. -/
def counterTaken (c : Config) (counter : Nat) : Bool := decide (2 ^ (c.ctrBits - 1) ≤ counter)

/-- The counter at a key; one that was never there reads 0 (10_state.md R36). -/
def Bht.counter (b : Bht) (key : Nat) : Nat := b.ctr.getD key 0

/-- `BHT.predict(address)` (R243). -/
def bhtPredict (c : Config) (b : Bht) (address : Int) : Bool :=
  counterTaken c (b.counter (predictorKey c address))

/-- A counter after an outcome: one up or one down, clamped into `[0, CTR_MAX]` (R244). -/
def trainCounter (c : Config) (counter : Nat) (outcome : Bool) : Nat :=
  (clamp (if outcome then (counter : Int) + 1 else (counter : Int) - 1) 0 (ctrMax c)).toNat

/-- The table after `BHT.update(address, outcome)` (R244): the tally of the prior prediction, then the
counter. -/
def bhtTrain (c : Config) (b : Bht) (address : Int) (outcome : Bool) : Bht where
  ctr := b.ctr.set (predictorKey c address)
    (trainCounter c (b.counter (predictorKey c address)) outcome)
  correct := if bhtPredict c b address = outcome then b.correct + 1 else b.correct
  incorrect := if bhtPredict c b address = outcome then b.incorrect else b.incorrect + 1

/-- `BHT.update(address, outcome)` (R244): the table after it, and the prior prediction it returns. -/
def bhtUpdate (c : Config) (b : Bht) (address : Int) (outcome : Bool) : Bht × Bool :=
  (bhtTrain c b address outcome, bhtPredict c b address)

/-- `BHT.reset()` (R245): every counter and both tallies 0. -/
def bhtReset (b : Bht) : Bht where
  ctr := b.ctr.map fun _ => 0
  correct := 0
  incorrect := 0

/-- The active table, `bht[hist]` (R247). -/
def State.activeBht (s : State) : Bht := s.bhts.getD s.hist (Bht.zero s.cfg)

/-- `CBP.predict(address)` (R248). -/
def cbpPredict (s : State) (address : Int) : Bool := bhtPredict s.cfg s.activeBht address

/-- `shift(h, outcome)` (R250): the newest outcome enters on the right, the oldest leaves on the left. -/
def historyShift (c : Config) (h : Nat) (outcome : Bool) : Nat :=
  (2 * h + b2i outcome) % 2 ^ c.histBits

/-- `CBP.update(address, outcome)` (R249): the table selected by the history before the shift is
updated, then the outcome is shifted in; what the table's update returns is not used. -/
def cbpUpdate (s : State) (address : Int) (outcome : Bool) : State :=
  { s with
    bhts := s.bhts.modify s.hist fun b => (bhtUpdate s.cfg b address outcome).1
    hist := historyShift s.cfg s.hist outcome }

/-- `CBP.reset()` (R251). -/
def cbpReset (s : State) : State := { s with bhts := s.bhts.map bhtReset, hist := 0 }

end Sys2Proof.Machine
end

