-- ==== Sys2Proof/Machine/Jump.lean ====
section
/-! DEFINITION. The Jump Unit (43_jump_unit.md R210 to R218) and the CPU's branch step (46_cpu.md
R279). -/

namespace Sys2Proof.Machine

open Sys2Proof

/-- `JumpUnit.execute` of a comparison, format FB (R210): the outcome, and the target operand. -/
def compareRegs (f : Int → Int → Bool) (ops : List Operand) (s : State) :
    Except Fault (Bool × Operand) :=
  (format3 ops).bind fun p =>
    (readReg s p.1).bind fun a => (readReg s p.2.1).bind fun b => .ok (f a b, p.2.2)

/-- `JumpUnit.execute` of the unconditional jump, format FJ (R217): always taken. -/
def alwaysTaken (ops : List Operand) : Except Fault (Bool × Operand) :=
  (format1 ops).bind fun target => .ok (true, target)

/-- The pc after a branch (R218, R279 (c)): the target's line if taken, the next line if not. The
target is looked up only when the branch is taken. -/
def branchPc (s : State) (taken : Bool) (target : Operand) : Except Fault Int :=
  if taken then (lookupLabel s.clabel target).bind fun line => .ok (line : Int)
  else .ok (s.pc + 1)

/-- The address that keys the update (46_cpu.md R285), given the pc before and after the branch. -/
def updateAddress (c : Config) (before after : Int) : Int :=
  match c.updateKey with
  | .postPc => after
  | .prePc => before

/-- The display latches of a completed branch step (10_state.md R40). The spec gives `last_addr` no width;
its wrap into the register range (DESIGN CHOICE, log 9) leaves every pc that is in range as it is. -/
def State.latch (s : State) (pred outcome : Bool) (addr : Int) : State :=
  { s with
    lastValid := true
    lastPred := pred
    lastOutcome := outcome
    lastAddr := wrap s.cfg.xlen addr }

/-- What a branch step writes once its outcome and its new pc are known (R279 (c) to (e)): the pc, the
predictor, the latches. The prediction is the one made before, with the pc before. -/
def branchTo (s : State) (newPc : Int) (taken : Bool) : State :=
  let moved := s.setPc newPc
  (cbpUpdate moved (updateAddress s.cfg s.pc moved.pc) taken).latch (cbpPredict s s.pc) taken s.pc

/-- Case 4 of the dispatch, the branch step (R279): predict, execute, resolve the target and write the
pc, update, latch. A raise leaves everything as before (R281). -/
def branchStep (executed : Except Fault (Bool × Operand)) (s : State) :
    Host.Outcome State Fault Refusal :=
  match executed.bind fun r => (branchPc s r.1 r.2).bind fun newPc => .ok (branchTo s newPc r.1) with
  | .ok s' => .next s'
  | .error e => raise e

/-- `beq` (R211). -/
def execBeq (ops : List Operand) (s : State) : Host.Outcome State Fault Refusal :=
  branchStep (compareRegs outcomeEq ops s) s

/-- `bne` (R212). -/
def execBne (ops : List Operand) (s : State) : Host.Outcome State Fault Refusal :=
  branchStep (compareRegs outcomeNe ops s) s

/-- `bgt` (R213). -/
def execBgt (ops : List Operand) (s : State) : Host.Outcome State Fault Refusal :=
  branchStep (compareRegs outcomeGt ops s) s

/-- `bge` (R214). -/
def execBge (ops : List Operand) (s : State) : Host.Outcome State Fault Refusal :=
  branchStep (compareRegs outcomeGe ops s) s

/-- `blt` (R215). -/
def execBlt (ops : List Operand) (s : State) : Host.Outcome State Fault Refusal :=
  branchStep (compareRegs outcomeLt ops s) s

/-- `ble` (R216). -/
def execBle (ops : List Operand) (s : State) : Host.Outcome State Fault Refusal :=
  branchStep (compareRegs outcomeLe ops s) s

/-- `j` (R217): no register is read; it is predicted and trained like every branch. -/
def execJ (ops : List Operand) (s : State) : Host.Outcome State Fault Refusal :=
  branchStep (alwaysTaken ops) s

end Sys2Proof.Machine
end

