-- ==== Sys2Proof/Machine/Lines.lean ====
section
/-! DEFINITION. The lines that call no functional unit (40_lines_and_nop.md R140 to R145; 46_cpu.md
R275 to R277, R280). -/

namespace Sys2Proof.Machine

open Sys2Proof

/-- A section directive (R140): `pc <- pc + 1`. -/
def execSection (s : State) : Host.Outcome State Fault Refusal := complete (.ok s)

/-- `label: .space count` (R141): `pc <- pc + 1`; the data is not registered again. -/
def execSpace (s : State) : Host.Outcome State Fault Refusal := complete (.ok s)

/-- `label: .word v1 v2 ...` (R142): `pc <- pc + 1`; the data is not registered again. -/
def execWord (s : State) : Host.Outcome State Fault Refusal := complete (.ok s)

/-- A bare label (R143): `pc <- pc + 1`. -/
def execLabel (s : State) : Host.Outcome State Fault Refusal := complete (.ok s)

/-- `nop` (R144): `pc <- pc + 1`; BadOperands if it has operands. -/
def execNop (ops : List Operand) (s : State) : Host.Outcome State Fault Refusal :=
  complete ((formatF0 ops).bind fun _ => .ok s)

/-- An unknown operation (R145, 46_cpu.md R280): UnknownOperation; no operand is read. -/
def execUnknown (opcode : Text) (_s : State) : Host.Outcome State Fault Refusal :=
  raise (.unknownOperation opcode)

end Sys2Proof.Machine
end

