-- ==== Sys2Proof/Machine/MemoryUnit.lean ====
section
/-! DEFINITION. The Memory Unit (42_memory_unit.md R190 to R200): operand check, register reads in
operand order, the computation with its label lookup or data read, then the one write (R190). -/

namespace Sys2Proof.Machine

open Sys2Proof

/-- `lw` (R191): the base is read, then the word, then the destination is written. -/
def execLw (ops : List Operand) (s : State) : Host.Outcome State Fault Refusal :=
  complete <| (formatFM ops).bind fun p =>
    (readReg s p.2.2).bind fun base =>
      (memRead s (effectiveAddress s.cfg base (imm s.cfg p.2.1))).bind fun v => writeReg s p.1 v

/-- `sw` (R192): the stored register is read, then the base, then the word is written. -/
def execSw (ops : List Operand) (s : State) : Host.Outcome State Fault Refusal :=
  complete <| (formatFM ops).bind fun p =>
    (readReg s p.1).bind fun v => (readReg s p.2.2).bind fun base =>
      memWrite s (effectiveAddress s.cfg base (imm s.cfg p.2.1)) v

/-- `li` (R193). -/
def execLi (ops : List Operand) (s : State) : Host.Outcome State Fault Refusal :=
  complete <| (formatFRI ops).bind fun p => writeReg s p.1 (imm s.cfg p.2)

/-- The factor `LA_SCALE` stands for (00_scope.md R8). -/
def laFactor (c : Config) : Int :=
  match c.laScale with
  | .one => 1
  | .wordSize => c.wordSize

/-- `la` (R194): the label is looked up in the data label map. -/
def execLa (ops : List Operand) (s : State) : Host.Outcome State Fault Refusal :=
  complete <| (format2 ops).bind fun p =>
    (lookupLabel s.dlabel p.2).bind fun base => writeReg s p.1 (base * laFactor s.cfg)

/-- `LUI_SHIFT` (00_scope.md R8, D16). -/
def luiShift (c : Config) : Nat := c.xlen / 2

/-- `lui` (R195). -/
def execLui (ops : List Operand) (s : State) : Host.Outcome State Fault Refusal :=
  complete <| (formatFRI ops).bind fun p =>
    writeReg s p.1 (imm s.cfg p.2 * pow2 (luiShift s.cfg))

/-- `mfhi` (R196). -/
def execMfhi (ops : List Operand) (s : State) : Host.Outcome State Fault Refusal :=
  complete <| (format1 ops).bind fun r => writeReg s r s.hi

/-- `mflo` (R197). -/
def execMflo (ops : List Operand) (s : State) : Host.Outcome State Fault Refusal :=
  complete <| (format1 ops).bind fun r => writeReg s r s.lo

/-- `mthi` (R198). -/
def execMthi (ops : List Operand) (s : State) : Host.Outcome State Fault Refusal :=
  complete <| (format1 ops).bind fun r => (readReg s r).bind fun v => .ok (s.setHi v)

/-- `mtlo` (R199). -/
def execMtlo (ops : List Operand) (s : State) : Host.Outcome State Fault Refusal :=
  complete <| (format1 ops).bind fun r => (readReg s r).bind fun v => .ok (s.setLo v)

/-- `move` (R200). -/
def execMove (ops : List Operand) (s : State) : Host.Outcome State Fault Refusal :=
  complete (unary (fun a => a) ops s)

end Sys2Proof.Machine
end

