-- ==== Sys2Proof/Machine/Syscall.lean ====
section
/-! DEFINITION. The System-Call Unit (44_syscall_unit.md R230 to R236). -/

namespace Sys2Proof.Machine

open Sys2Proof

/-- Append an event to the host's output list (R236). -/
def State.emit (s : State) (e : Event) : State := { s with out := s.out ++ [e] }

/-- `print_int` and `print_char` (R231, R232): append the event made of the argument register. -/
def printArg (event : Int → Event) (ops : List Operand) (s : State) : Except Fault State :=
  (formatF0 ops).bind fun _ =>
    (readReg s (.sym s.cfg.sysArgReg)).bind fun v => .ok (s.emit (event v))

/-- An answer of the input provider into the result register (R233, R234); the draw is used up. -/
def acceptInput (s : State) (answer : Int) : Except Fault State :=
  (writeReg s (.sym s.cfg.sysResReg) answer).bind fun s' => .ok s'.drawn

/-- `read_int` and `read_char` (R233, R234): the answer is free (log 6); a provider that never answers
leaves the step stuck (U7, log 7). -/
def readInput (answer : Nat → Int) (ops : List Operand) (s : State) : Except Fault State :=
  (formatF0 ops).bind fun _ =>
    if s.inputSilent then .error .inputNeverAnswers else acceptInput s (answer s.draws)

/-- `print_int` (R231). -/
def execPrintInt (ops : List Operand) (s : State) : Host.Outcome State Fault Refusal :=
  complete (printArg .printInt ops s)

/-- `print_char` (R232): the register value is the character code, unchecked (D35). -/
def execPrintChar (ops : List Operand) (s : State) : Host.Outcome State Fault Refusal :=
  complete (printArg .printChar ops s)

/-- `read_int` (R233). -/
def execReadInt (ops : List Operand) (s : State) : Host.Outcome State Fault Refusal :=
  complete (readInput Config.answerInt ops s)

/-- `read_char` (R234): a character code is a non-negative integer. -/
def execReadChar (ops : List Operand) (s : State) : Host.Outcome State Fault Refusal :=
  complete (readInput (fun n => (Config.answerChar n : Int)) ops s)

/-- `exit` (R235): reserved and unimplemented; it raises NotImplemented, after the operand check
(60_exceptions.md R313), every time it is executed. -/
def execExit (ops : List Operand) (_s : State) : Host.Outcome State Fault Refusal :=
  match formatF0 ops with
  | .ok _ => raise (.notImplemented (text "exit"))
  | .error e => raise e

end Sys2Proof.Machine
end

