-- ==== Sys2Proof/Machine/Dispatch.lean ====
section
/-! DEFINITION. The dispatch of a line to its meaning (46_cpu.md R275), one arm per constructor. -/

namespace Sys2Proof.Machine

open Sys2Proof

/-- The meaning of one line at a state whose `pc` indexes it (46_cpu.md R275). -/
def exec (i : Instr) (s : State) : Host.Outcome State Fault Refusal :=
  match i with
  | .sectionLine _ => Sys2Proof.Machine.execSection s
  | .spaceLine _ _ => Sys2Proof.Machine.execSpace s
  | .wordLine _ _ => Sys2Proof.Machine.execWord s
  | .labelLine _ => Sys2Proof.Machine.execLabel s
  | .nop _ ops => Sys2Proof.Machine.execNop ops s
  | .add _ ops => Sys2Proof.Machine.execAdd ops s
  | .sub _ ops => Sys2Proof.Machine.execSub ops s
  | .mult _ ops => Sys2Proof.Machine.execMult ops s
  | .div _ ops => Sys2Proof.Machine.execDiv ops s
  | .and _ ops => Sys2Proof.Machine.execAnd ops s
  | .or _ ops => Sys2Proof.Machine.execOr ops s
  | .xor _ ops => Sys2Proof.Machine.execXor ops s
  | .not _ ops => Sys2Proof.Machine.execNot ops s
  | .slt _ ops => Sys2Proof.Machine.execSlt ops s
  | .sllv _ ops => Sys2Proof.Machine.execSllv ops s
  | .srlv _ ops => Sys2Proof.Machine.execSrlv ops s
  | .srav _ ops => Sys2Proof.Machine.execSrav ops s
  | .addi _ ops => Sys2Proof.Machine.execAddi ops s
  | .andi _ ops => Sys2Proof.Machine.execAndi ops s
  | .ori _ ops => Sys2Proof.Machine.execOri ops s
  | .xori _ ops => Sys2Proof.Machine.execXori ops s
  | .slti _ ops => Sys2Proof.Machine.execSlti ops s
  | .sll _ ops => Sys2Proof.Machine.execSll ops s
  | .srl _ ops => Sys2Proof.Machine.execSrl ops s
  | .sra _ ops => Sys2Proof.Machine.execSra ops s
  | .lw _ ops => Sys2Proof.Machine.execLw ops s
  | .sw _ ops => Sys2Proof.Machine.execSw ops s
  | .li _ ops => Sys2Proof.Machine.execLi ops s
  | .la _ ops => Sys2Proof.Machine.execLa ops s
  | .lui _ ops => Sys2Proof.Machine.execLui ops s
  | .mfhi _ ops => Sys2Proof.Machine.execMfhi ops s
  | .mflo _ ops => Sys2Proof.Machine.execMflo ops s
  | .mthi _ ops => Sys2Proof.Machine.execMthi ops s
  | .mtlo _ ops => Sys2Proof.Machine.execMtlo ops s
  | .move _ ops => Sys2Proof.Machine.execMove ops s
  | .beq _ ops => Sys2Proof.Machine.execBeq ops s
  | .bne _ ops => Sys2Proof.Machine.execBne ops s
  | .bgt _ ops => Sys2Proof.Machine.execBgt ops s
  | .bge _ ops => Sys2Proof.Machine.execBge ops s
  | .blt _ ops => Sys2Proof.Machine.execBlt ops s
  | .ble _ ops => Sys2Proof.Machine.execBle ops s
  | .j _ ops => Sys2Proof.Machine.execJ ops s
  | .printInt _ ops => Sys2Proof.Machine.execPrintInt ops s
  | .printChar _ ops => Sys2Proof.Machine.execPrintChar ops s
  | .readInt _ ops => Sys2Proof.Machine.execReadInt ops s
  | .readChar _ ops => Sys2Proof.Machine.execReadChar ops s
  | .exit _ ops => Sys2Proof.Machine.execExit ops s
  | .unknownOp _ opcode _ => Sys2Proof.Machine.execUnknown opcode s

end Sys2Proof.Machine
end

