-- ==== Sys2Proof/Machine/Lexical.lean ====
section
/-! DEFINITION. The lexical classes of program text (30_encoding.md R93), case folding (R102), and
decimal numbers in both directions (R101, R111). -/

namespace Sys2Proof

/-- Whether a character lies between two others, by code. -/
def charBetween (lo hi c : Char) : Bool :=
  decide (lo.toNat ≤ c.toNat) && decide (c.toNat ≤ hi.toNat)

/-- `[0-9]` (R93). -/
def isDigit (c : Char) : Bool := charBetween '0' '9' c

/-- `[A-Za-z]` (R93). -/
def isLetter (c : Char) : Bool := charBetween 'A' 'Z' c || charBetween 'a' 'z' c

/-- `[A-Za-z0-9_]` (R93). -/
def isWordChar (c : Char) : Bool := isLetter c || isDigit c || c == '_'

/-- The characters of `ws` and `ows`: space and tab (R93). They are also what `parse` trims
(DEDUCED, log 10). -/
def isBlank (c : Char) : Bool := c == ' ' || c == '\t'

/-- The characters of `sep`: space, tab and comma (R93). -/
def isSep (c : Char) : Bool := isBlank c || c == ','

/-- The characters of `tok` (R93). -/
def isTokChar (c : Char) : Bool := !(isSep c || c == ':' || c == '(' || c == ')')

/-- Lower case of one character; only `A` to `Z` change (R102; DESIGN CHOICE for the letters outside
ASCII, log 11). -/
def lowerChar (c : Char) : Char := if charBetween 'A' 'Z' c then Char.ofNat (c.toNat + 32) else c

/-- `lower` (R102). -/
def lower (t : Text) : Text := t.map lowerChar

/-- `ident` (R93): `[A-Za-z_][A-Za-z0-9_]*`. -/
def isIdent : Text → Bool
  | [] => false
  | c :: cs => (isLetter c || c == '_') && cs.all isWordChar

/-- `opc` (R93): `[A-Za-z][A-Za-z0-9_]*`. -/
def isOpc : Text → Bool
  | [] => false
  | c :: cs => isLetter c && cs.all isWordChar

/-- `nat` (R93): `[0-9]+`. -/
def isNatText (t : Text) : Bool := !t.isEmpty && t.all isDigit

/-- `int` (R93): `[+-]?[0-9]+`. -/
def isIntText : Text → Bool
  | [] => false
  | c :: cs => if c == '+' || c == '-' then isNatText cs else isNatText (c :: cs)

/-- `tok` (R93): one or more token characters. -/
def isTok (t : Text) : Bool := !t.isEmpty && t.all isTokChar

/-- The value of a digit. -/
def digitValue (c : Char) : Nat := c.toNat - '0'.toNat

/-- The value of a string of decimal digits. -/
def natValue (t : Text) : Nat := t.foldl (fun n c => 10 * n + digitValue c) 0

/-- The decimal value of an `int` (R101). -/
def intValue : Text → Int
  | [] => 0
  | c :: cs =>
    if c == '+' then (natValue cs : Int)
    else if c == '-' then -(natValue cs : Int)
    else (natValue (c :: cs) : Int)

/-- The decimal digits of `n` in front of `acc`; `fuel` bounds their number. -/
def decimalFrom : Nat → Nat → Text → Text
  | 0, _, acc => acc
  | fuel + 1, n, acc =>
    let digits := Char.ofNat ('0'.toNat + n % 10) :: acc
    if n / 10 = 0 then digits else decimalFrom fuel (n / 10) digits

/-- A natural number in decimal (R111). -/
def decimalNat (n : Nat) : Text := decimalFrom (n + 1) n []

/-- An integer in decimal (R111). -/
def decimalInt (v : Int) : Text :=
  if v < 0 then '-' :: decimalNat v.natAbs else decimalNat v.natAbs

/-- Remove the blanks at both ends of a line (R93). -/
def trimBlanks (t : Text) : Text := ((t.dropWhile isBlank).reverse.dropWhile isBlank).reverse

/-- The words of a text: its longest runs of characters that are no `sep`; `current` is the word
being read, reversed. -/
def wordsFrom : Text → Text → List Text
  | [], current => if current.isEmpty then [] else [current.reverse]
  | c :: cs, current =>
    if isSep c then
      if current.isEmpty then wordsFrom cs [] else current.reverse :: wordsFrom cs []
    else wordsFrom cs (c :: current)

/-- Read `w (sep w)*` (R97, R100): none unless the text is nonempty and begins and ends with a
character that is no `sep`. -/
def sepList (t : Text) : Option (List Text) :=
  match t.head?, t.getLast? with
  | some c, some d => if isSep c || isSep d then none else some (wordsFrom t [])
  | _, _ => none

/-- Read `ident ":"` from the front of a text (R93): the identifier and what follows the colon. -/
def takeLabel (t : Text) : Option (Text × Text) :=
  match t.dropWhile isWordChar with
  | ':' :: rest => if isIdent (t.takeWhile isWordChar) then some (t.takeWhile isWordChar, rest) else none
  | _ => none

/-- Read `ws` from the front of a text (R93): what follows one or more blanks. -/
def takeWs (t : Text) : Option Text :=
  match t with
  | c :: _ => if isBlank c then some (t.dropWhile isBlank) else none
  | [] => none

/-- Read a keyword in any letter case from the front of a text (R93). -/
def takeKeyword (keyword t : Text) : Option Text :=
  if lower (t.take keyword.length) = keyword then some (t.drop keyword.length) else none

end Sys2Proof
end

