-- ==== Sys2Proof/Machine/Record.lean ====
section
/-! DEFINITION. The fields of an instruction record as functions of the instruction
(30_encoding.md R90, R91, R104). -/

namespace Sys2Proof

/-- The constructors of the operations, in the order of the op ids 0 to 42 (30_encoding.md R104). -/
def operations : List (Option Text → List Operand → Instr) :=
  [.nop, .add, .sub, .mult, .div, .and, .or, .xor, .not, .slt, .sllv, .srlv, .srav,
    .addi, .andi, .ori, .xori, .slti, .sll, .srl, .sra,
    .lw, .sw, .li, .la, .lui, .mfhi, .mflo, .mthi, .mtlo, .move,
    .beq, .bne, .bgt, .bge, .blt, .ble, .j,
    .printInt, .printChar, .readInt, .readChar, .exit]

/-- An operation's op id, label and operands (30_encoding.md R104); none for the other lines and for
an unknown operation. -/
def Instr.operation? : Instr → Option (Nat × Option Text × List Operand)
  | .sectionLine _ => none
  | .spaceLine _ _ => none
  | .wordLine _ _ => none
  | .labelLine _ => none
  | .nop l o => some (0, l, o)
  | .add l o => some (1, l, o)
  | .sub l o => some (2, l, o)
  | .mult l o => some (3, l, o)
  | .div l o => some (4, l, o)
  | .and l o => some (5, l, o)
  | .or l o => some (6, l, o)
  | .xor l o => some (7, l, o)
  | .not l o => some (8, l, o)
  | .slt l o => some (9, l, o)
  | .sllv l o => some (10, l, o)
  | .srlv l o => some (11, l, o)
  | .srav l o => some (12, l, o)
  | .addi l o => some (13, l, o)
  | .andi l o => some (14, l, o)
  | .ori l o => some (15, l, o)
  | .xori l o => some (16, l, o)
  | .slti l o => some (17, l, o)
  | .sll l o => some (18, l, o)
  | .srl l o => some (19, l, o)
  | .sra l o => some (20, l, o)
  | .lw l o => some (21, l, o)
  | .sw l o => some (22, l, o)
  | .li l o => some (23, l, o)
  | .la l o => some (24, l, o)
  | .lui l o => some (25, l, o)
  | .mfhi l o => some (26, l, o)
  | .mflo l o => some (27, l, o)
  | .mthi l o => some (28, l, o)
  | .mtlo l o => some (29, l, o)
  | .move l o => some (30, l, o)
  | .beq l o => some (31, l, o)
  | .bne l o => some (32, l, o)
  | .bgt l o => some (33, l, o)
  | .bge l o => some (34, l, o)
  | .blt l o => some (35, l, o)
  | .ble l o => some (36, l, o)
  | .j l o => some (37, l, o)
  | .printInt l o => some (38, l, o)
  | .printChar l o => some (39, l, o)
  | .readInt l o => some (40, l, o)
  | .readChar l o => some (41, l, o)
  | .exit l o => some (42, l, o)
  | .unknownOp _ _ _ => none

/-- The field `kind` of the record (30_encoding.md R91). -/
def Instr.kind : Instr → Kind
  | .sectionLine _ => .sectionDirective
  | .spaceLine _ _ => .data
  | .wordLine _ _ => .data
  | .labelLine _ => .label
  | _ => .op

/-- The field `label` of the record (30_encoding.md R90). -/
def Instr.lineLabel : Instr → Option Text
  | .sectionLine _ => none
  | .spaceLine l _ => some l
  | .wordLine l _ => some l
  | .labelLine l => some l
  | .unknownOp l _ _ => l
  | i => i.operation?.bind fun p => p.2.1

/-- The field `operands` of the record (30_encoding.md R90). -/
def Instr.operands : Instr → List Operand
  | .unknownOp _ _ ops => ops
  | i => (i.operation?.map fun p => p.2.2).getD []

/-- The field `inline_data` of the record, and the label it is declared under; none for a line that
declares no data (30_encoding.md R90, R96, R97). -/
def Instr.dataDecl : Instr → Option (Text × List Int)
  | .spaceLine l count => some (l, List.replicate count 0)
  | .wordLine l values => some (l, values)
  | _ => none

end Sys2Proof
end

