-- ==== Sys2Proof/WellFormed.lean ====
section
/-! DEFINITION. Which records the decoder can produce (30_encoding.md R95 to R101), and which
configurations the spec admits (00_scope.md R5 to R8). -/

namespace Sys2Proof

/-- A label as the decoder stores it: a lower-case `ident` (R93, R102). -/
def isLabelName (t : Text) : Bool := isIdent t && (lower t == t)

/-- An opcode as the decoder stores it: a lower-case `opc` (R93, R102). -/
def isOpcodeName (t : Text) : Bool := isOpc t && (lower t == t)

/-- A symbolic operand as the decoder stores it: a lower-case `tok` that is no integer (R101). -/
def isSymbolName (t : Text) : Bool := isTok t && !isIntText t && (lower t == t)

/-- An operand the decoder can store (R101). -/
def Operand.wf : Operand → Bool
  | .int _ => true
  | .sym name => isSymbolName name

/-- The label and operands of an operation the decoder can store (R99, R100): at most three operands. -/
def operationWf (label : Option Text) (ops : List Operand) : Bool :=
  label.all isLabelName && decide (ops.length ≤ 3) && ops.all Operand.wf

/-- A record the decoder can produce when `mnemonics` binds the opcode strings (R95 to R100, R104). -/
def Instr.wf (mnemonics : List Text) (i : Instr) : Bool :=
  match i with
  | .sectionLine ('.' :: name) => isLabelName name
  | .sectionLine _ => false
  | .spaceLine label _ => isLabelName label
  | .wordLine label values => isLabelName label && !values.isEmpty
  | .labelLine label => isLabelName label
  | .unknownOp label opcode ops =>
    operationWf label ops && isOpcodeName opcode && !mnemonics.contains opcode
  | i => i.operation?.all fun p => operationWf p.2.1 p.2.2

/-- The opcode strings can be told apart by the decoder: 43 different lower-case `opc` words
(30_encoding.md R93, R102, R104; DEDUCED, log 24). -/
def mnemonicsWf (mnemonics : List Text) : Bool :=
  decide (mnemonics.length = operations.length) && decide mnemonics.Nodup &&
    mnemonics.all isOpcodeName

/-- The register names: different, none of them the zero register's, `pc`, `hi` or `lo`, and each one
an operand can name (10_state.md R21, R22, R24; 30_encoding.md R101; DEDUCED, log 24). -/
def Config.namesWf (c : Config) : Bool :=
  decide (c.zeroName :: c.gprNames).Nodup && (c.zeroName :: c.gprNames).all isSymbolName &&
    (c.zeroName :: c.gprNames).all (fun n => !(["pc", "hi", "lo"].map text).contains n)

/-- A configuration the spec admits: the constraints of 00_scope.md R5 to R8 (and log 24). -/
def Config.valid (c : Config) : Bool :=
  decide (2 ≤ c.xlen) && decide (c.xlen % 2 = 0) && decide (1 ≤ c.wordSize) &&
    decide (1 ≤ c.ctrBits) && c.namesWf && c.gprNames.contains c.sysArgReg &&
    c.gprNames.contains c.sysResReg && mnemonicsWf c.mnemonics

end Sys2Proof
end

