-- ==== Sys2Proof/Decode.lean ====
section
/-! DEFINITION. The decoder, from one line of text to an instruction record, and after it the encoder,
the selector of a record, and the reading of the opcode table's selectors. -/

namespace Sys2Proof

/-- Why a line is rejected. -/
inductive DecodeError where
  /-- No recognizer matches the line (30_encoding.md R103, 60_exceptions.md R301); raised by `parse`.
  Safe: the spec names this failure. -/
  | noPattern (line : Text)
  deriving DecidableEq, Repr

/-- Operand classification (R101). -/
def classify (token : Text) : Operand :=
  if isIntText token then .int (intValue token) else .sym (lower token)

/-- The record of an operation, by its opcode string (R104): the operation bound to the string, or an
unknown operation. -/
def operationOf (mnemonics : List Text) (label : Option Text) (opcode : Text) (ops : List Operand) :
    Instr :=
  match mnemonics.idxOf? opcode with
  | some id =>
    match operations[id]? with
    | some make => make label ops
    | none => .unknownOp label opcode ops
  | none => .unknownOp label opcode ops

/-- Recognizer 1, section directive: `"." ident` (R95). -/
def recognizeSection : Text → Option Instr
  | '.' :: name => if isIdent name then some (.sectionLine ('.' :: lower name)) else none
  | _ => none

/-- Recognizer 2, space reservation: `ident ":" ows ".space" ws nat` (R96). -/
def recognizeSpace (line : Text) : Option Instr :=
  (takeLabel line).bind fun p =>
    ((takeKeyword (text ".space") (p.2.dropWhile isBlank)).bind takeWs).bind fun count =>
      if isNatText count then some (.spaceLine (lower p.1) (natValue count)) else none

/-- Recognizer 3, word declaration: `ident ":" ows ".word" ws int (sep int)*` (R97). -/
def recognizeWord (line : Text) : Option Instr :=
  (takeLabel line).bind fun p =>
    (((takeKeyword (text ".word") (p.2.dropWhile isBlank)).bind takeWs).bind sepList).bind
      fun values =>
        if values.all isIntText then some (.wordLine (lower p.1) (values.map intValue)) else none

/-- Recognizer 4, bare label: `ident ":"` (R98). -/
def recognizeLabel (line : Text) : Option Instr :=
  (takeLabel line).bind fun p => if p.2.isEmpty then some (.labelLine (lower p.1)) else none

/-- The tail of recognizer 5, `int? "(" ows tok ows ")"` (R99): the offset, 0 if omitted, and the base
token. -/
def offsetBase (t : Text) : Option (Int × Text) :=
  let offset := t.takeWhile isTokChar
  match t.dropWhile isTokChar with
  | '(' :: inner =>
    let base := (inner.dropWhile isBlank).takeWhile isTokChar
    if (offset.isEmpty || isIntText offset) && isTok base &&
        (((inner.dropWhile isBlank).dropWhile isTokChar).dropWhile isBlank == [')'])
    then some (intValue offset, base)
    else none
  | _ => none

/-- Recognizer 5, base+offset syntax: `opc ws tok sep int? "(" ows tok ows ")"`, no leading label
(R99, C11). -/
def recognizeBaseOffset (mnemonics : List Text) (line : Text) : Option Instr :=
  let opcode := line.takeWhile isWordChar
  if isOpc opcode then
    (takeWs (line.dropWhile isWordChar)).bind fun rest =>
      let dest := rest.takeWhile isTokChar
      let tail := rest.dropWhile isTokChar
      if isTok dest && tail.head?.any isSep then
        (offsetBase (tail.dropWhile isSep)).map fun p =>
          operationOf mnemonics none (lower opcode) [classify dest, .int p.1, classify p.2]
      else none
  else none

/-- The operand tokens of recognizer 6, `(ws tok (sep tok)? (sep tok)?)?` (R100). -/
def operandTokens (t : Text) : Option (List Text) :=
  if t.isEmpty then some []
  else ((takeWs t).bind sepList).bind fun tokens =>
    if tokens.length ≤ 3 && tokens.all isTok then some tokens else none

/-- Recognizer 6 after its optional label: `opc (ws tok (sep tok)? (sep tok)?)?` (R100). -/
def recognizeOperation (mnemonics : List Text) (label : Option Text) (t : Text) : Option Instr :=
  let opcode := t.takeWhile isWordChar
  if isOpc opcode then
    (operandTokens (t.dropWhile isWordChar)).map fun tokens =>
      operationOf mnemonics label (lower opcode) (tokens.map classify)
  else none

/-- Recognizer 6, generic operation (R100). A leading label is read where there is one. -/
def recognizeGeneric (mnemonics : List Text) (line : Text) : Option Instr :=
  match takeLabel line with
  | some (label, rest) => recognizeOperation mnemonics (some (lower label)) (rest.dropWhile isBlank)
  | none => recognizeOperation mnemonics none line

/-- The six recognizers in their priority order; the first match wins (R94). -/
def recognize (mnemonics : List Text) (line : Text) : Option Instr :=
  (recognizeSection line).or <| (recognizeSpace line).or <| (recognizeWord line).or <|
    (recognizeLabel line).or <| (recognizeBaseOffset mnemonics line).or <|
      recognizeGeneric mnemonics line

/-- The decoder, `parse(line)` (R92, R93, R103): trim the line, then the recognizers; a line that none
of them matches is rejected. -/
def parse (mnemonics : List Text) (line : Text) : Except DecodeError Instr :=
  match recognize mnemonics (trimBlanks line) with
  | some i => .ok i
  | none => .error (.noPattern line)

/-! ### The encoder -/

/-- An operand's canonical text (R111). -/
def Operand.render : Operand → Text
  | .int v => decimalInt v
  | .sym name => name

/-- Texts separated by a comma and a space (R111). -/
def commaList : List Text → Text
  | [] => []
  | [t] => t
  | t :: ts => t ++ text ", " ++ commaList ts

/-- The canonical text of an operation line (R111). -/
def renderOperation (label : Option Text) (opcode : Text) (ops : List Operand) : Text :=
  (match label with
    | some l => l ++ text ": "
    | none => []) ++
    opcode ++ (if ops.isEmpty then [] else ' ' :: commaList (ops.map Operand.render))

/-- The field `opcode` of the record (R90): none for a bare label. -/
def Instr.opcode? (mnemonics : List Text) : Instr → Option Text
  | .sectionLine keyword => some keyword
  | .spaceLine _ _ => some (text ".space")
  | .wordLine _ _ => some (text ".word")
  | .labelLine _ => none
  | .unknownOp _ opcode _ => some opcode
  | i => i.operation?.bind fun p => mnemonics[p.1]?

/-- The encoder, `render(i)` (R111): the canonical text of a record. -/
def encode (mnemonics : List Text) (i : Instr) : Text :=
  match i with
  | .sectionLine keyword => keyword
  | .spaceLine label count => label ++ text ": .space " ++ decimalNat count
  | .wordLine label values => label ++ text ": .word " ++ commaList (values.map decimalInt)
  | .labelLine label => label ++ text ":"
  | i => renderOperation i.lineLabel ((i.opcode? mnemonics).getD []) i.operands

/-! ### Selectors (R105) -/

/-- `kind_code` (R105). -/
def Kind.code : Kind → Nat
  | .sectionDirective => 0
  | .data => 1
  | .label => 2
  | .op => 3

/-- `op_code` (R105): the op id of an operation, 63 for an unknown one, and 1 for `.word`. -/
def Instr.opCode : Instr → Nat
  | .sectionLine _ => 0
  | .spaceLine _ _ => 0
  | .wordLine _ _ => 1
  | .labelLine _ => 0
  | .unknownOp _ _ _ => 63
  | i => (i.operation?.map fun p => p.1).getD 63

/-- The 9-bit selector of a record, `kind_code ++ op_code` (R105). -/
def Instr.selector (i : Instr) : Nat := i.kind.code * 64 + i.opCode

/-- Operand formats (R106). -/
inductive Format where
  | f0
  | fr3
  | fr2
  | frs2
  | fi
  | fri
  | frl
  | fr1
  | fm
  | fb
  | fj
  deriving DecidableEq, Repr

/-- The formats of the operations, by op id (R104). -/
def formats : List Format :=
  [.f0, .fr3, .fr3, .frs2, .fr3, .fr3, .fr3, .fr3, .fr2, .fr3, .fr3, .fr3, .fr3,
    .fi, .fi, .fi, .fi, .fi, .fi, .fi, .fi,
    .fm, .fm, .fri, .frl, .fri, .fr1, .fr1, .fr1, .fr1, .fr2,
    .fb, .fb, .fb, .fb, .fb, .fb, .fj,
    .f0, .f0, .f0, .f0, .f0]

/-- What stands in the operand positions when a selector is read as a line: a selector has no operand
bits, so every register is `$zero`, every integer 0 and every label `d` (DESIGN CHOICE, log 16). -/
def Format.plainOperands : Format → Text
  | .f0 => []
  | .fr3 => text " $zero, $zero, $zero"
  | .fr2 => text " $zero, $zero"
  | .frs2 => text " $zero, $zero"
  | .fi => text " $zero, $zero, 0"
  | .fri => text " $zero, 0"
  | .frl => text " $zero, d"
  | .fr1 => text " $zero"
  | .fm => text " $zero, 0($zero)"
  | .fb => text " $zero, $zero, d"
  | .fj => text " d"

/-- The line a selector stands for (R105, log 16); none for a selector that numbers nothing. -/
def selectorLine (sel : Nat) : Option Text :=
  if sel = 0x000 then some (text ".data")
  else if sel = 0x040 then some (text "y: .space 0")
  else if sel = 0x041 then some (text "y: .word 0")
  else if sel = 0x080 then some (text "y:")
  else if sel = 0x0FF then some (text "unknown $zero")
  else if 0x0C0 ≤ sel then
    match Config.referenceMnemonics[sel - 0x0C0]?, formats[sel - 0x0C0]? with
    | some opcode, some f => some (opcode ++ f.plainOperands)
    | _, _ => none
  else none

/-- The instruction the decoder reads from the line that the selector in `w`'s low 9 bits stands for.
The table's rows are 9 bits, in whole bytes 16; higher bits are none of the selector's (R105). -/
def decodeTableWord (nbits w : Nat) : Option Instr :=
  (selectorLine (w % 2 ^ nbits % 512)).bind fun line =>
    (parse Config.referenceMnemonics line).toOption

end Sys2Proof
end

