-- ==== Sys2Proof/Machine/Load.lean ====
section
/-! DEFINITION. The public operations `reset` (70_reset_and_hazards.md R330 to R332) and `load`
(46_cpu.md R270 to R273), and the fetch of a line (R274). -/

namespace Sys2Proof.Machine

open Sys2Proof

/-! ### reset -/

/-- Register File `reset()` (R331): the general registers and the pc 0, the data segment and the data
label map empty. -/
def registerFileReset (s : State) : State :=
  { s with regs := s.regs.map fun _ => 0, pc := 0, dmem := [], dlabel := [] }

/-- The latches after a reset (R330, 10_state.md R46): not valid; the other three hold unspecified
values (free values, drawn by a counter of their own: log 9). The spec gives `last_addr` no width, and
that the free value is wrapped into the register range is the model's choice (DESIGN CHOICE, log 9). -/
def latchesReset (s : State) : State :=
  { s with
    lastValid := false
    lastPred := Config.stalePred s.latchDraws
    lastOutcome := Config.staleOutcome s.latchDraws
    lastAddr := wrap s.cfg.xlen (Config.staleAddr s.latchDraws)
    latchDraws := s.latchDraws + 1 }

/-- The public `reset` (R330): the Register File and the predictor reset, `hi` and `lo` zeroed, the
program and its labels emptied, the latches invalid. The host's output list and input oracle are not
touched. -/
def resetBlock (s : State) : State :=
  { latchesReset (cbpReset (registerFileReset s)) with
    hi := 0
    lo := 0
    prog := []
    clabel := []
    textStart := 0 }

/-! ### load -/

/-- Whether a record is the `.text` section marker (46_cpu.md R270 (4)). -/
def isTextMarker : Instr → Bool
  | .sectionLine keyword => keyword == text ".text"
  | _ => false

/-- The labels of a program's lines, in order (R273). -/
def programLabels (program : List Instr) : List Text := program.filterMap Instr.lineLabel

/-- The first label that an earlier line of the list carries too (R271 (c); DESIGN CHOICE which one is
reported, log 15). -/
def firstRepeated : List Text → List Text → Option Text
  | _, [] => none
  | seen, l :: ls => if seen.contains l then some l else firstRepeated (l :: seen) ls

/-- Data registration (R272): every declaration, in program order; the base each one returns is not used. -/
def registerData (program : List Instr) (s : State) : State :=
  (program.filterMap Instr.dataDecl).foldl (fun t d => (setDataByLabel t d.1 d.2).1) s

/-- The code label map of a program whose first line has the given index (R273). -/
def codeLabels : Nat → List Instr → LabelMap → LabelMap
  | _, [], m => m
  | k, i :: rest, m =>
    codeLabels (k + 1) rest (match i.lineLabel with
      | some l => LabelMap.put m l k
      | none => m)

/-- Steps (3) to (6) of `load` (R270): the program, the start index and the pc, the data, the labels. -/
def installProgram (program : List Instr) (start : Nat) (s : State) : State :=
  { (registerData program { s with prog := program, textStart := start }).setPc start with
    clabel := codeLabels 0 program [] }

/-- `load(instructions)` (R270, R271): the checks in their order, all before any change; then the block
is reset and the program installed. A program of more than `MAX` lines is refused (R9, log 14). -/
def load (program : List Instr) (s : State) : Host.Outcome State Fault Refusal :=
  if maxVal s.cfg.xlen < program.length then .refused .programTooLong
  else match program.findIdx? isTextMarker with
    | none => raise .missingTextSection
    | some t =>
      if t + 1 = program.length then raise .emptyProgram
      else match firstRepeated [] (programLabels program) with
        | some l => raise (.duplicateLabel l)
        | none => .next (installProgram program (t + 1) (resetBlock s))

/-! ### fetch -/

/-- What a fetch finds (R274). -/
inductive Fetched where
  /-- `pc >= len(prog)`. -/
  | halted
  /-- The record at the pc. -/
  | line (i : Instr)
  /-- A negative pc, which no run reaches (log 13). -/
  | negative
  deriving DecidableEq, Repr

/-- The fetch of `step` (R274). -/
def fetch (s : State) : Fetched :=
  if s.pc < 0 then .negative
  else match s.prog[s.pc.toNat]? with
    | some i => .line i
    | none => .halted

/-! ### A line placed where the next step fetches -/

/-- The program that carries one given line: a data declaration, so that a label and a word exist; the
`.text` marker; the line (log 16, log 17). -/
def programAround (i : Instr) : List Instr :=
  [.wordLine (text "d") [0], .sectionLine (text ".text"), i]

/-- A program placed from outside the machine, with the label maps and the data segment that `load`
builds for it; every other part of the state stays (log 17). -/
def placeLine (i : Instr) (s : State) : State :=
  installProgram (programAround i) 2 { s with dmem := [], dlabel := [] }

end Sys2Proof.Machine
end

