-- ==== Sys2Proof/Machine/Step.lean ====
section
/-! DEFINITION. One step (46_cpu.md R274, R275), and the placing of one line where the next step
fetches. -/

namespace Sys2Proof.Machine

open Sys2Proof

/-- `step()` (R274): a halted machine returns HALTED with no state change, so its next state is the
same state (DESIGN CHOICE, log 4); else the line at the pc is dispatched. -/
def step (s : State) : Host.Outcome State Fault Refusal :=
  match fetch s with
  | .halted => .next s
  | .line i => exec i s
  | .negative => .refused .negativePc

/-- `s` with the line of a table word placed where the next step fetches; `s` itself where the word
numbers no line (log 16, log 17). -/
def State.withFetchWord (s : State) (nbits w : Nat) : State :=
  match decodeTableWord nbits w with
  | some i => placeLine i s
  | none => s

end Sys2Proof.Machine
end

