-- ==== Sys2Proof/Machine/Port.lean ====
section
/-! DEFINITION. The command port (46_cpu.md R282 to R284) and the status it returns (60_exceptions.md
R300). -/

namespace Sys2Proof.Machine

open Sys2Proof

/-- The status of a public operation (R300): done, halted, an error, or refused by the model. -/
inductive Status where
  | ok
  | halted
  | error (e : Fault)
  | refused (r : Refusal)
  deriving DecidableEq, Repr

/-- The code of an error (R300); none for the stuck read, which returns no status (U7). -/
def Fault.code : Fault → Option Nat
  | .decodeError _ => some 2
  | .unknownRegister _ => some 3
  | .unknownLabel _ => some 4
  | .addressOutOfRange _ => some 5
  | .unknownOperation _ => some 6
  | .missingTextSection => some 7
  | .emptyProgram => some 8
  | .notImplemented _ => some 9
  | .divideByZero => some 10
  | .badOperands => some 11
  | .duplicateLabel _ => some 12
  | .inputNeverAnswers => none

/-- The status code (R300); none for what the model refuses. -/
def Status.code : Status → Option Nat
  | .ok => some 0
  | .halted => some 1
  | .error e => e.code
  | .refused _ => none

/-- The terminal condition, `pc >= len(prog)` (R274). -/
def State.halted (s : State) : Bool := decide ((s.prog.length : Int) ≤ s.pc)

/-- The status and the state an outcome leaves: after a fault or a refusal the state is the one before
(R281, R314). A stuck read never completes, so there is neither (44_syscall_unit.md R233, log 7). -/
def settle (before : State) : Host.Outcome State Fault Refusal → Option (Status × State)
  | .next s => some (.ok, s)
  | .fault .inputNeverAnswers => none
  | .fault e => some (.error e, before)
  | .refused r => some (.refused r, before)

/-- A blank line, which the host drops (30_encoding.md R92). -/
def isBlankLine (line : Text) : Bool := line.all isBlank

/-- The records of a list of lines, or the first line that fails (R283). -/
def parseLines (mnemonics : List Text) : List Text → Except DecodeError (List Instr)
  | [] => .ok []
  | line :: rest =>
    (parse mnemonics line).bind fun i => (parseLines mnemonics rest).bind fun is => .ok (i :: is)

/-- The lines of a program that are decoded: all but the blank ones (R283). -/
def sourceLines (lines : List Text) : List Text := lines.filter fun l => !isBlankLine l

/-- `LOAD(lines)` (R283): drop the blank lines, decode the others in order, then `load`. -/
def loadLines (lines : List Text) (s : State) : Host.Outcome State Fault Refusal :=
  match parseLines s.cfg.mnemonics (sourceLines lines) with
  | .ok program => load program s
  | .error (.noPattern line) => raise (.decodeError line)

/-- The commands of the port that have one end (R283). -/
inductive Command where
  | reset
  | load (lines : List Text)
  | step
  deriving DecidableEq, Repr

/-- One command: its status and the state it leaves (R283); none if it never completes. `reset` cannot
fail (R330); `step` returns HALTED only when called at the terminal condition (D29). -/
def command (c : Command) (s : State) : Option (Status × State) :=
  match c with
  | .reset => some (.ok, resetBlock s)
  | .load lines => settle s (loadLines lines s)
  | .step => if s.halted then some (.halted, s) else settle s (step s)

/-- `RUN` from a state ends with a status in a state (R282, R284): the iteration of `step` until a
status other than OK. A relation: a program that does not terminate has no end, and the run has no
bound (log 22). -/
inductive RunEnds : State → Status → State → Prop where
  | stop {s t : State} {r : Status} : command .step s = some (r, t) → r ≠ .ok → RunEnds s r t
  | go {s t u : State} {r : Status} :
    command .step s = some (.ok, t) → RunEnds t r u → RunEnds s r u

end Sys2Proof.Machine
end

