-- ==== Sys2Proof/Machine/Query.lean ====
section
/-! DEFINITION. The read-only queries (10_state.md R47, R48; 45_branch_predictor.md R246, R247, R252;
30_encoding.md R112). Each is a function of the state that changes nothing. -/

namespace Sys2Proof.Machine

open Sys2Proof

/-- Query (a): the register contents by name (R47), the internal registers under `pc`, `hi`, `lo`. -/
def registerSnapshot (s : State) : List (Text × Int) :=
  s.cfg.gprNames.zip s.regs ++
    [(s.cfg.zeroName, 0), (text "pc", s.pc), (text "hi", s.hi), (text "lo", s.lo)]

/-- A label entry inserted in order of its base, after the entries with the same base (R48). -/
def insertByBase (e : Text × Nat) : LabelMap → LabelMap
  | [] => [e]
  | f :: rest => if e.2 < f.2 then e :: f :: rest else f :: insertByBase e rest

/-- A label map sorted by base, entries with one base in the order they were declared (R48). -/
def sortByBase (m : LabelMap) : LabelMap := m.foldl (fun sorted e => insertByBase e sorted) []

/-- The slices of a data segment at sorted bases: each runs to the next entry's base, the last one to
the end (R48). -/
def slicesOf (data : List Int) : LabelMap → List (Text × List Int)
  | [] => []
  | [(l, base)] => [(l, data.drop base)]
  | (l, base) :: (l', base') :: rest =>
    (l, (data.drop base).take (base' - base)) :: slicesOf data ((l', base') :: rest)

/-- Query (b): the data segment as a map from label to slice (R48). -/
def dataView (s : State) : List (Text × List Int) := slicesOf s.dmem (sortByBase s.dlabel)

/-- Query (c): the current line, when there is one (R47). -/
def currentLine (s : State) : Option Instr :=
  match fetch s with
  | .line i => some i
  | .halted => none
  | .negative => none

/-- The number of updates a table has received (R244). -/
def Bht.updates (b : Bht) : Nat := b.correct + b.incorrect

/-- Query (d), one table: its accuracy, 0 if it has had no update (R246). -/
def bhtAccuracy (b : Bht) : Rat :=
  if b.updates = 0 then 0 else (b.correct : Rat) / (b.updates : Rat)

/-- Query (d), the aggregate: the product of the tables' accuracies, an idle table counting as 1
(R252). -/
def aggregateAccuracy (s : State) : Rat :=
  s.bhts.foldl (fun acc b => acc * (if b.updates = 0 then 1 else bhtAccuracy b)) 1

/-- Query (e): the active table's index, which is the history value (R47, R247). -/
def activeTable (s : State) : Nat := s.hist

/-- Query (f): the display latches (R40, R47): the last prediction, outcome and address, once a branch
has completed since the last reset. -/
def displayLatches (s : State) : Option (Bool × Bool × Int) :=
  if s.lastValid then some (s.lastPred, s.lastOutcome, s.lastAddr) else none

/-- Query (g): the predictor tables (R47). -/
def predictorTables (s : State) : List Bht := s.bhts

/-- Query (h): the opcode set as a flat list (R112). -/
def opcodeSet (c : Config) : List Text := c.mnemonics

/-- The functional units (30_encoding.md R104). -/
inductive FunctionalUnit where
  | alu
  | memory
  | jump
  | systemCall
  deriving DecidableEq, Repr

/-- The unit that declares an operation, by op id; none for `nop` and for what is no operation
(R104). -/
def unitOf (opId : Nat) : Option FunctionalUnit :=
  if opId = 0 then none
  else if opId ≤ 20 then some .alu
  else if opId ≤ 30 then some .memory
  else if opId ≤ 37 then some .jump
  else if opId ≤ 42 then some .systemCall
  else none

/-- The unit a line calls; none for a line that calls none. -/
def unitOfLine (i : Instr) : Option FunctionalUnit := i.operation?.bind fun p => unitOf p.1

/-- `declares(unit, opcode)` (R112). -/
def declares (c : Config) (u : FunctionalUnit) (opcode : Text) : Bool :=
  (c.mnemonics.idxOf? opcode).any fun id => unitOf id == some u

/-- The number of updates all tables together have received (45_branch_predictor.md R255). -/
def totalUpdates (s : State) : Nat := (s.bhts.map Bht.updates).sum

end Sys2Proof.Machine
end

