-- ==== Sys2Proof/Safety.lean ====
section
/-! DEFINITION. The states the rules speak of, and what counts as a safe run. -/

namespace Sys2Proof.Machine

open Sys2Proof

/-- A value in the signed `XLEN`-bit range (10_state.md R23). -/
def inRange (c : Config) (v : Int) : Bool := decide (minVal c.xlen ≤ v) && decide (v ≤ maxVal c.xlen)

/-- A table of the right size whose counters are all in `[0, CTR_MAX]` (10_state.md R35). -/
def Bht.wf (c : Config) (b : Bht) : Bool :=
  decide (b.ctr.length = 2 ^ c.keyBits) && b.ctr.all fun n => decide (n ≤ ctrMax c)

/-- The registers: one value per name, every value in range (10_state.md R21, R23); the latch `last_addr`
also where its value is unspecified (DESIGN CHOICE, log 9). -/
def registersWf (s : State) : Bool :=
  decide (s.regs.length = s.cfg.gprNames.length) && s.regs.all (inRange s.cfg) &&
    inRange s.cfg s.pc && inRange s.cfg s.hi && inRange s.cfg s.lo && inRange s.cfg s.lastAddr

/-- The program counter, the program's size and the label maps (10_state.md R26, 00_scope.md R9): the pc
is in `[0, len(prog)]`, the program has at most `MAX` lines, and every code label is a line. -/
def programWf (s : State) : Bool :=
  decide (0 ≤ s.pc) && decide (s.pc ≤ s.prog.length) &&
    decide ((s.prog.length : Int) ≤ maxVal s.cfg.xlen) &&
    s.clabel.all (fun e => decide (e.2 < s.prog.length)) && decide (s.textStart ≤ s.prog.length)

/-- The data segment and its labels (10_state.md R29 to R31): words in range, and no base beyond the
segment's end. -/
def dataWf (s : State) : Bool :=
  Memory.wf s.cfg s.dmem && s.dlabel.all fun e => decide (e.2 ≤ s.dmem.length)

/-- The predictor (10_state.md R35, R38): `2 ^ HIST_BITS` tables, a history that selects one of them,
every counter in its range. -/
def predictorWf (s : State) : Bool :=
  decide (s.bhts.length = 2 ^ s.cfg.histBits) && decide (s.hist < 2 ^ s.cfg.histBits) &&
    s.bhts.all (Bht.wf s.cfg)

/-- The invariant of the machine: an admitted configuration and all of the above. -/
def State.wf (s : State) : Bool :=
  s.cfg.valid && registersWf s && programWf s && dataWf s && predictorWf s

/-! ### The terms statements use -/

/-- The part of a state the predictor must not influence (45_branch_predictor.md R253; 95_test_vectors.md
part 4): everything but the predictor, its latches and its parameters. -/
structure Architectural where
  regs : List Int
  pc : Int
  hi : Int
  lo : Int
  dmem : List Int
  dlabel : LabelMap
  prog : List Instr
  clabel : LabelMap
  textStart : Nat
  out : List Event
  draws : Nat
  inputSilent : Bool
  deriving DecidableEq, Repr

/-- The architectural part of a state (R253). -/
def State.architectural (s : State) : Architectural where
  regs := s.regs
  pc := s.pc
  hi := s.hi
  lo := s.lo
  dmem := s.dmem
  dlabel := s.dlabel
  prog := s.prog
  clabel := s.clabel
  textStart := s.textStart
  out := s.out
  draws := s.draws
  inputSilent := s.inputSilent

/-- A configuration without the parameters of the predictor (R253, 46_cpu.md R285). -/
def withoutPredictor (c : Config) : Config :=
  { c with ctrBits := 1, keyBits := 0, histBits := 0, updateKey := .postPc }

/-- Whether an operand names a register an instruction can reach (10_state.md R24). -/
def namesRegister (c : Config) : Operand → Bool
  | .int _ => false
  | .sym name => name == c.zeroName || c.gprNames.contains name

/-- `s` after register `o` is given the value `v`: the wrapped value in its place, nothing at all for
the zero register (10_state.md R22, R23). -/
def State.put (s : State) (o : Operand) (v : Int) : State :=
  match o with
  | .int _ => s
  | .sym name =>
    if name = s.cfg.zeroName then s
    else match s.cfg.gprNames.idxOf? name with
      | some k => { s with regs := s.regs.set k (wrap s.cfg.xlen v) }
      | none => s

/-- Whether a list of operands fits a format: its count, and an integer in the immediate position
(30_encoding.md R106). -/
def formatFits : Format → List Operand → Bool
  | .f0, [] => true
  | .fr3, [_, _, _] => true
  | .fr2, [_, _] => true
  | .frs2, [_, _] => true
  | .fi, [_, _, .int _] => true
  | .fri, [_, .int _] => true
  | .frl, [_, _] => true
  | .fr1, [_] => true
  | .fm, [_, .int _, _] => true
  | .fb, [_, _, _] => true
  | .fj, [_] => true
  | _, _ => false

/-- A completed branch step from `s` to the line `target`, with outcome `taken`, written out field by
field (46_cpu.md R279, R285; 45_branch_predictor.md R249, R250; 10_state.md R40). -/
def branchedTo (s : State) (target : Int) (taken : Bool) : State :=
  { s with
    pc := wrap s.cfg.xlen target
    bhts := s.bhts.modify s.hist fun b =>
      (bhtUpdate s.cfg b
        (if s.cfg.updateKey = .postPc then wrap s.cfg.xlen target else s.pc) taken).1
    hist := (2 * s.hist + if taken then 1 else 0) % 2 ^ s.cfg.histBits
    lastValid := true
    lastPred := bhtPredict s.cfg (s.bhts.getD s.hist (Bht.zero s.cfg)) s.pc
    lastOutcome := taken
    lastAddr := wrap s.cfg.xlen s.pc }

/-- The word index that `lw` and `sw` use for a base value and an offset literal (20_memory.md R62). -/
def wordIndex (c : Config) (base off : Int) : Int := base / c.wordSize + wrap c.xlen off

/-- Two states that differ at most in the predictor and its parameters (45_branch_predictor.md R253). -/
def sameArchitecture (s t : State) : Prop :=
  withoutPredictor s.cfg = withoutPredictor t.cfg ∧ s.architectural = t.architectural

/-- Two outcomes that agree but for the predictor (95_test_vectors.md part 4). -/
def sameOutcome : Host.Outcome State Fault Refusal → Host.Outcome State Fault Refusal → Prop
  | .next s, .next t => sameArchitecture s t
  | .fault e, .fault f => e = f
  | .refused r, .refused q => r = q
  | _, _ => False

/-- Reached by steps alone: what every `STEP` and `RUN` from a state goes through. -/
inductive Reaches : State → State → Prop where
  | here (s : State) : Reaches s s
  | step {s t u : State} : step s = .next t → Reaches t u → Reaches s u

/-- A safe run: no state reached by steps raises an error or is refused; it may run for ever
(70_reset_and_hazards.md R339). -/
def SafeFrom (s : State) : Prop := ∀ t, Reaches s t → ∃ u, Machine.step t = .next u

end Sys2Proof.Machine
end

