-- ==== Sys2Proof/Certificates/Slice0/Obligations.lean ====
section
/-! DEFINITION. The statements for the provers. Each docstring names the rules of spec/ it formalises. -/

open Sys2Proof Sys2Proof.Machine

/-! ### The decoder and the encoder -/

/-- 30_encoding.md R111: the canonical text of every record the decoder can produce decodes to that
record, for every binding of the opcode strings. -/
def Obligations.DecodeOfEncodeIsTheInstruction : Prop :=
  ∀ (mnemonics : List Text) (i : Instr), mnemonicsWf mnemonics = true → i.wf mnemonics = true →
    parse mnemonics (encode mnemonics i) = .ok i

/-- 30_encoding.md R95 to R102: every record the decoder produces is well-formed: its names are lower
case and of their lexical class, and an operation has at most three operands. -/
def Obligations.DecodedRecordsAreWellFormed : Prop :=
  ∀ (mnemonics : List Text) (line : Text) (i : Instr), mnemonicsWf mnemonics = true →
    parse mnemonics line = .ok i → i.wf mnemonics = true

/-- 30_encoding.md R94: the six patterns are pairwise disjoint: no line matches two of them. -/
def Obligations.RecognizersArePairwiseDisjoint : Prop :=
  ∀ (mnemonics : List Text) (line : Text),
    (([recognizeSection line, recognizeSpace line, recognizeWord line, recognizeLabel line,
        recognizeBaseOffset mnemonics line, recognizeGeneric mnemonics line].filter
          Option.isSome).length ≤ 1)

/-- 30_encoding.md R101, R102: a line and its lower-case spelling decode to one record. -/
def Obligations.LetterCaseDoesNotMatter : Prop :=
  ∀ (mnemonics : List Text) (line : Text),
    (parse mnemonics (lower line)).toOption = (parse mnemonics line).toOption

/-- 30_encoding.md R105: in the reference instance the 48 selectors of the opcode table, and no other
of the 512, number lines, and the record of each has that selector. The line a selector stands for is
the model's own (log 16). -/
def Obligations.SelectorsNumberTheOpcodeTable : Prop :=
  ∀ w : Nat, w < 512 →
    (decodeTableWord 16 w).map Instr.selector =
      if w = 0x000 ∨ w = 0x040 ∨ w = 0x041 ∨ w = 0x080 ∨ (0x0C0 ≤ w ∧ w ≤ 0x0EA) ∨ w = 0x0FF
      then some w else none

/-- 30_encoding.md R95 to R100 (vectors V2, V8, V12, V15, V22, V25): one line per recognizer, written
out, decodes to the record it stands for. -/
def Obligations.SampleLinesDecodeToTheirRecords : Prop :=
  parse Config.referenceMnemonics (text "  .DATA  ") = .ok (.sectionLine (text ".data")) ∧
  parse Config.referenceMnemonics (text "buf: .space 3") = .ok (.spaceLine (text "buf") 3) ∧
  parse Config.referenceMnemonics (text "A: .WORD 1, -2,+3") = .ok (.wordLine (text "a") [1, -2, 3]) ∧
  parse Config.referenceMnemonics (text "LOOP:") = .ok (.labelLine (text "loop")) ∧
  parse Config.referenceMnemonics (text "lw $t1, 4($t0)") =
    .ok (.lw none [.sym (text "$t1"), .int 4, .sym (text "$t0")]) ∧
  parse Config.referenceMnemonics (text "L1: addi $t0, $t0, -1") =
    .ok (.addi (some (text "l1")) [.sym (text "$t0"), .sym (text "$t0"), .int (-1)]) ∧
  parse Config.referenceMnemonics (text "j END") = .ok (.j none [.sym (text "end")]) ∧
  parse Config.referenceMnemonics (text "print_int") = .ok (.printInt none [])

/-! ### Registers, data segment, numbers -/

/-- 10_state.md R23 and 00_scope.md R12: what a register holds after any write of `v` is `wrap(v)`: the
one value in `[MIN, MAX]` congruent to `v` modulo `2 ^ XLEN`, so that writing `2 ^ (XLEN - 1)` wraps to
`-2 ^ (XLEN - 1)`. For the general registers, `pc`, `hi` and `lo`. -/
def Obligations.EveryRegisterWriteWraps : Prop :=
  ∀ (s : State) (name : Text) (v : Int), 2 ≤ s.cfg.xlen →
    name ≠ s.cfg.zeroName → name ∈ s.cfg.gprNames → s.regs.length = s.cfg.gprNames.length →
    (∃ t, writeReg s (.sym name) v = .ok t ∧ readReg t (.sym name) = .ok (wrap s.cfg.xlen v)) ∧
    (s.setPc v).pc = wrap s.cfg.xlen v ∧ (s.setHi v).hi = wrap s.cfg.xlen v ∧
    (s.setLo v).lo = wrap s.cfg.xlen v ∧
    minVal s.cfg.xlen ≤ wrap s.cfg.xlen v ∧ wrap s.cfg.xlen v ≤ maxVal s.cfg.xlen ∧
    ((2 : Int) ^ s.cfg.xlen) ∣ (wrap s.cfg.xlen v - v) ∧
    wrap s.cfg.xlen ((2 : Int) ^ (s.cfg.xlen - 1)) = -(2 : Int) ^ (s.cfg.xlen - 1)

/-- 10_state.md R22, R24 and 60_exceptions.md R302: a write through an operand that names a register
gives the state in which that register alone is changed (none at all for the zero register), and every
other register operand reads as before; an operand that names none, an integer among them, raises
UnknownRegister, read or written. -/
def Obligations.RegisterAccessIsByNameAndFramed : Prop :=
  ∀ (s : State) (o : Operand) (v : Int),
    (namesRegister s.cfg o = true →
      writeReg s o v = .ok (s.put o v) ∧ (∃ a, readReg s o = .ok a) ∧
      ∀ o' : Operand, o' ≠ o → readReg (s.put o v) o' = readReg s o') ∧
    (namesRegister s.cfg o = false →
      writeReg s o v = .error (.unknownRegister o) ∧ readReg s o = .error (.unknownRegister o))

/-- 10_state.md R22: the zero register reads 0 whatever is written to it, and the write changes
nothing. -/
def Obligations.ZeroRegisterAlwaysReadsZero : Prop :=
  ∀ (s : State) (v : Int),
    writeReg s (.sym s.cfg.zeroName) v = .ok s ∧ readReg s (.sym s.cfg.zeroName) = .ok 0

/-- 20_memory.md R63, R73: a read and a write of a word index outside `[0, len(dmem))` raise
AddressOutOfRange, for a negative index by the spec's own extension (D19); inside it, a write stores the
wrapped value, leaves every other word, keeps the length, and the word then reads as stored. -/
def Obligations.DataAccessIsBoundedAndFramed : Prop :=
  ∀ (s : State) (addr v : Int),
    ((addr < 0 ∨ (s.dmem.length : Int) ≤ addr) →
      memRead s addr = .error (.addressOutOfRange addr) ∧
      memWrite s addr v = .error (.addressOutOfRange addr)) ∧
    (0 ≤ addr → addr < s.dmem.length →
      (∃ w, s.dmem[addr.toNat]? = some w ∧ memRead s addr = .ok w) ∧
      ∃ t, memWrite s addr v = .ok t ∧ t.dmem.length = s.dmem.length ∧
        memRead t addr = .ok (wrap s.cfg.xlen v) ∧
        (∀ x, x ≠ addr → memRead t x = memRead s x) ∧
        t = { s with dmem := t.dmem })

/-! ### What each instruction does: its next state, for every admitted operand form -/

/-- 41_alu.md R151, R152, R163: `add`, `sub`, `addi` complete with the sum or difference in `rd`, wrapped
by the write; nothing else changes but the pc. -/
def Obligations.AddSubAddiWriteTheSum : Prop :=
  ∀ (s : State) (l : Option Text) (rd rs rt : Operand) (a b k : Int),
    namesRegister s.cfg rd = true → readReg s rs = .ok a → readReg s rt = .ok b →
    exec (.add l [rd, rs, rt]) s = .next (s.put rd (a + b)).advance ∧
    exec (.sub l [rd, rs, rt]) s = .next (s.put rd (a - b)).advance ∧
    exec (.addi l [rd, rs, .int k]) s = .next (s.put rd (a + k)).advance

/-- 41_alu.md R155 to R158, R164 to R166: the bitwise instructions complete with the bit-by-bit result
on the `XLEN`-bit two's-complement patterns; `not` gives `-a - 1`. -/
def Obligations.BitwiseInstructionsActOnPatterns : Prop :=
  ∀ (s : State) (l : Option Text) (rd rs rt : Operand) (a b k : Int),
    namesRegister s.cfg rd = true → readReg s rs = .ok a → readReg s rt = .ok b →
    exec (.and l [rd, rs, rt]) s = .next
      (s.put rd (BitVec.ofInt s.cfg.xlen a &&& BitVec.ofInt s.cfg.xlen b).toInt).advance ∧
    exec (.or l [rd, rs, rt]) s = .next
      (s.put rd (BitVec.ofInt s.cfg.xlen a ||| BitVec.ofInt s.cfg.xlen b).toInt).advance ∧
    exec (.xor l [rd, rs, rt]) s = .next
      (s.put rd (BitVec.ofInt s.cfg.xlen a ^^^ BitVec.ofInt s.cfg.xlen b).toInt).advance ∧
    exec (.not l [rd, rs]) s = .next (s.put rd (-a - 1)).advance ∧
    exec (.andi l [rd, rs, .int k]) s = .next
      (s.put rd (BitVec.ofInt s.cfg.xlen a &&& BitVec.ofInt s.cfg.xlen k).toInt).advance ∧
    exec (.ori l [rd, rs, .int k]) s = .next
      (s.put rd (BitVec.ofInt s.cfg.xlen a ||| BitVec.ofInt s.cfg.xlen k).toInt).advance ∧
    exec (.xori l [rd, rs, .int k]) s = .next
      (s.put rd (BitVec.ofInt s.cfg.xlen a ^^^ BitVec.ofInt s.cfg.xlen k).toInt).advance

/-- 41_alu.md R160 to R162 and R171: the register shifts complete with the amount taken modulo `XLEN`; a
left shift multiplies, a logical right shift brings zeros in at the top of the pattern, an arithmetic
right shift copies the sign. -/
def Obligations.RegisterShiftsReduceTheAmount : Prop :=
  ∀ (s : State) (l : Option Text) (rd rs rt : Operand) (a b : Int),
    namesRegister s.cfg rd = true → readReg s rs = .ok a → readReg s rt = .ok b →
    exec (.sllv l [rd, rs, rt]) s = .next
      (s.put rd (a * 2 ^ (b % s.cfg.xlen).toNat)).advance ∧
    exec (.srlv l [rd, rs, rt]) s = .next
      (s.put rd (BitVec.ofInt s.cfg.xlen a >>> (b % s.cfg.xlen).toNat).toInt).advance ∧
    exec (.srav l [rd, rs, rt]) s = .next
      (s.put rd (a >>> (b % s.cfg.xlen).toNat)).advance

/-- 41_alu.md R168 to R170: the immediate shifts do the same with the immediate, wrapped to `XLEN` bits,
as the amount. -/
def Obligations.ImmediateShiftsReduceTheAmount : Prop :=
  ∀ (s : State) (l : Option Text) (rd rs : Operand) (a k : Int),
    namesRegister s.cfg rd = true → readReg s rs = .ok a →
    exec (.sll l [rd, rs, .int k]) s = .next
      (s.put rd (a * 2 ^ (wrap s.cfg.xlen k % s.cfg.xlen).toNat)).advance ∧
    exec (.srl l [rd, rs, .int k]) s = .next
      (s.put rd (BitVec.ofInt s.cfg.xlen a >>> (wrap s.cfg.xlen k % s.cfg.xlen).toNat).toInt).advance ∧
    exec (.sra l [rd, rs, .int k]) s = .next
      (s.put rd (a >>> (wrap s.cfg.xlen k % s.cfg.xlen).toNat)).advance

/-- 41_alu.md R159, R167: `slt` and `slti` complete with 1 or 0, by the signed comparison. -/
def Obligations.SetLessComparesSigned : Prop :=
  ∀ (s : State) (l : Option Text) (rd rs rt : Operand) (a b k : Int),
    namesRegister s.cfg rd = true → readReg s rs = .ok a → readReg s rt = .ok b →
    exec (.slt l [rd, rs, rt]) s = .next (s.put rd (if a < b then 1 else 0)).advance ∧
    exec (.slti l [rd, rs, .int k]) s =
      .next (s.put rd (if a < wrap s.cfg.xlen k then 1 else 0)).advance

/-- 41_alu.md R153: `mult` completes, in a well-formed state, with `hi` and `lo` in range and together
the exact signed product; no general register changes. -/
def Obligations.MultSplitsTheExactProduct : Prop :=
  ∀ (s : State) (l : Option Text) (rs rt : Operand) (a b : Int),
    s.wf = true → readReg s rs = .ok a → readReg s rt = .ok b →
    ∃ h lw : Int, exec (.mult l [rs, rt]) s = .next (({ s with hi := h, lo := lw } : State).advance) ∧
      minVal s.cfg.xlen ≤ h ∧ h ≤ maxVal s.cfg.xlen ∧
      minVal s.cfg.xlen ≤ lw ∧ lw ≤ maxVal s.cfg.xlen ∧
      h * 2 ^ s.cfg.xlen + lw % 2 ^ s.cfg.xlen = a * b

/-- 41_alu.md R154, R171: `div` by a divisor that is not 0 completes with the quotient rounded as
`DIV_ROUND` says, its remainder being on the divisor's side under floor and on the dividend's under
trunc; a zero divisor raises DivideByZero. -/
def Obligations.DivRoundsAsConfigured : Prop :=
  ∀ (s : State) (l : Option Text) (rd rs rt : Operand) (a b : Int),
    namesRegister s.cfg rd = true → readReg s rs = .ok a → readReg s rt = .ok b →
    (b = 0 → exec (.div l [rd, rs, rt]) s = .fault .divideByZero) ∧
    (b ≠ 0 → ∃ q : Int, exec (.div l [rd, rs, rt]) s = .next (s.put rd q).advance ∧
      (a - q * b).natAbs < b.natAbs ∧
      (a - q * b = 0 ∨
        (a - q * b).sign = match s.cfg.divRound with
          | .floor => b.sign
          | .trunc => a.sign))

/-- 42_memory_unit.md R191, 20_memory.md R62: `lw` completes with the word at
`floor(x[rb] / WORD_SIZE) + offset` in `rt`; outside the data segment it raises AddressOutOfRange,
whatever the destination. -/
def Obligations.LwLoadsTheIndexedWord : Prop :=
  ∀ (s : State) (l : Option Text) (rt rb : Operand) (base off : Int),
    readReg s rb = .ok base →
    (∀ w, 0 ≤ wordIndex s.cfg base off → s.dmem[(wordIndex s.cfg base off).toNat]? = some w →
      namesRegister s.cfg rt = true →
      exec (.lw l [rt, .int off, rb]) s = .next (s.put rt w).advance) ∧
    ((wordIndex s.cfg base off < 0 ∨ (s.dmem.length : Int) ≤ wordIndex s.cfg base off) →
      exec (.lw l [rt, .int off, rb]) s = .fault (.addressOutOfRange (wordIndex s.cfg base off)))

/-- 42_memory_unit.md R192, 20_memory.md R62, R63: `sw` completes with the register's value at that word
index, every other word and every register as before; outside the data segment it raises
AddressOutOfRange. -/
def Obligations.SwStoresOneWord : Prop :=
  ∀ (s : State) (l : Option Text) (rt rb : Operand) (v base off : Int),
    readReg s rt = .ok v → readReg s rb = .ok base →
    (0 ≤ wordIndex s.cfg base off → wordIndex s.cfg base off < s.dmem.length →
      ∃ t, exec (.sw l [rt, .int off, rb]) s = .next t ∧
        t = { s with dmem := t.dmem, pc := wrap s.cfg.xlen (s.pc + 1) } ∧
        memRead t (wordIndex s.cfg base off) = .ok (wrap s.cfg.xlen v) ∧
        ∀ x, x ≠ wordIndex s.cfg base off → memRead t x = memRead s x) ∧
    ((wordIndex s.cfg base off < 0 ∨ (s.dmem.length : Int) ≤ wordIndex s.cfg base off) →
      exec (.sw l [rt, .int off, rb]) s = .fault (.addressOutOfRange (wordIndex s.cfg base off)))

/-- 42_memory_unit.md R193, R195 (the shift distance is the spec's choice, D16): `li` completes with the
literal, `lui` with the literal moved up by half the width; both wrapped. -/
def Obligations.LoadImmediatesWriteTheLiteral : Prop :=
  ∀ (s : State) (l : Option Text) (rd : Operand) (k : Int), namesRegister s.cfg rd = true →
    exec (.li l [rd, .int k]) s = .next (s.put rd k).advance ∧
    exec (.lui l [rd, .int k]) s = .next (s.put rd (k * 2 ^ (s.cfg.xlen / 2))).advance

/-- 42_memory_unit.md R194: `la` completes with the data label's word index times `LA_SCALE`; a label
that is not in the data label map, and an integer in its place, raise UnknownLabel. -/
def Obligations.LaLoadsTheScaledLabelIndex : Prop :=
  ∀ (s : State) (l : Option Text) (rd : Operand) (name : Text) (base : Nat) (v : Int),
    (namesRegister s.cfg rd = true → s.dlabel.lookup name = some base →
      exec (.la l [rd, .sym name]) s = .next (s.put rd
        (base * (if s.cfg.laScale = .one then 1 else (s.cfg.wordSize : Int)))).advance) ∧
    (s.dlabel.lookup name = none →
      exec (.la l [rd, .sym name]) s = .fault (.unknownLabel (.sym name))) ∧
    exec (.la l [rd, .int v]) s = .fault (.unknownLabel (.int v))

/-- 42_memory_unit.md R196 to R200: the moves complete between accumulators and registers. -/
def Obligations.MovesCopyOneRegister : Prop :=
  ∀ (s : State) (l : Option Text) (rd rs : Operand) (a : Int),
    namesRegister s.cfg rd = true → readReg s rs = .ok a →
    exec (.mfhi l [rd]) s = .next (s.put rd s.hi).advance ∧
    exec (.mflo l [rd]) s = .next (s.put rd s.lo).advance ∧
    exec (.mthi l [rs]) s = .next ({ s with hi := wrap s.cfg.xlen a } : State).advance ∧
    exec (.mtlo l [rs]) s = .next ({ s with lo := wrap s.cfg.xlen a } : State).advance ∧
    exec (.move l [rd, rs]) s = .next (s.put rd a).advance

/-- 43_jump_unit.md R210 to R216, R218 and 46_cpu.md R279: a comparison that is false, or true with its
target declared, completes the branch step of R279: the pc at the next line or at the target's line,
the predictor updated, the latches set, every register and word as before. -/
def Obligations.ComparisonBranchesComplete : Prop :=
  ∀ (s : State) (l : Option Text) (rs rt : Operand) (name : Text) (line : Nat) (a b : Int),
    readReg s rs = .ok a → readReg s rt = .ok b → s.clabel.lookup name = some line →
    exec (.beq l [rs, rt, .sym name]) s =
      .next (if a = b then branchedTo s line true else branchedTo s (s.pc + 1) false) ∧
    exec (.bne l [rs, rt, .sym name]) s =
      .next (if a ≠ b then branchedTo s line true else branchedTo s (s.pc + 1) false) ∧
    exec (.bgt l [rs, rt, .sym name]) s =
      .next (if a > b then branchedTo s line true else branchedTo s (s.pc + 1) false) ∧
    exec (.bge l [rs, rt, .sym name]) s =
      .next (if a ≥ b then branchedTo s line true else branchedTo s (s.pc + 1) false) ∧
    exec (.blt l [rs, rt, .sym name]) s =
      .next (if a < b then branchedTo s line true else branchedTo s (s.pc + 1) false) ∧
    exec (.ble l [rs, rt, .sym name]) s =
      .next (if a ≤ b then branchedTo s line true else branchedTo s (s.pc + 1) false)

/-- 43_jump_unit.md R218: the target is resolved only when the branch is taken. With a target that is not
declared, or an integer, a taken branch raises UnknownLabel and a branch not taken completes. -/
def Obligations.TargetsAreResolvedOnlyWhenTaken : Prop :=
  ∀ (s : State) (l : Option Text) (rs rt target : Operand) (a b : Int),
    readReg s rs = .ok a → readReg s rt = .ok b →
    (∀ name, target = .sym name → s.clabel.lookup name = none) →
    exec (.beq l [rs, rt, target]) s =
      (if a = b then .fault (.unknownLabel target) else .next (branchedTo s (s.pc + 1) false)) ∧
    exec (.bne l [rs, rt, target]) s =
      (if a ≠ b then .fault (.unknownLabel target) else .next (branchedTo s (s.pc + 1) false)) ∧
    exec (.bgt l [rs, rt, target]) s =
      (if a > b then .fault (.unknownLabel target) else .next (branchedTo s (s.pc + 1) false)) ∧
    exec (.bge l [rs, rt, target]) s =
      (if a ≥ b then .fault (.unknownLabel target) else .next (branchedTo s (s.pc + 1) false)) ∧
    exec (.blt l [rs, rt, target]) s =
      (if a < b then .fault (.unknownLabel target) else .next (branchedTo s (s.pc + 1) false)) ∧
    exec (.ble l [rs, rt, target]) s =
      (if a ≤ b then .fault (.unknownLabel target) else .next (branchedTo s (s.pc + 1) false)) ∧
    exec (.j l [target]) s = .fault (.unknownLabel target)

/-- 43_jump_unit.md R217: `j` to a declared label completes as a taken branch: it is predicted and
trained like every Jump-Unit opcode and reads no register. -/
def Obligations.JumpCompletesAsATakenBranch : Prop :=
  ∀ (s : State) (l : Option Text) (name : Text) (line : Nat), s.clabel.lookup name = some line →
    exec (.j l [.sym name]) s = .next (branchedTo s line true)

/-- 44_syscall_unit.md R231, R232: the print operations complete with one event appended, carrying the
argument register's value. -/
def Obligations.PrintsAppendOneEvent : Prop :=
  ∀ (s : State) (l : Option Text) (v : Int), readReg s (.sym s.cfg.sysArgReg) = .ok v →
    exec (.printInt l []) s =
      .next ({ s with out := s.out ++ [.printInt v] } : State).advance ∧
    exec (.printChar l []) s =
      .next ({ s with out := s.out ++ [.printChar v] } : State).advance

/-- 44_syscall_unit.md R233, R234: the read operations complete with the provider's answer, whatever it
is, in the result register. That an answer is a free value drawn by a counter is the model's form of
the oracle (log 6), and so is the fault of a provider that never answers (log 7). -/
def Obligations.ReadsWriteTheProvidersAnswer : Prop :=
  ∀ (s : State) (l : Option Text),
    (s.inputSilent = false → namesRegister s.cfg (.sym s.cfg.sysResReg) = true →
      exec (.readInt l []) s = .next ({ s.put (.sym s.cfg.sysResReg) (Config.answerInt s.draws) with
        draws := s.draws + 1 } : State).advance ∧
      exec (.readChar l []) s = .next ({ s.put (.sym s.cfg.sysResReg) (Config.answerChar s.draws) with
        draws := s.draws + 1 } : State).advance) ∧
    (s.inputSilent = true →
      exec (.readInt l []) s = .fault .inputNeverAnswers ∧
      exec (.readChar l []) s = .fault .inputNeverAnswers)

/-- 44_syscall_unit.md R235 and 60_exceptions.md R308, R313: `exit` without operands raises NotImplemented
every time, `exit` with operands BadOperands, which comes first (the spec's decisions D11, D36); and it is
the only instruction that raises NotImplemented. -/
def Obligations.ExitAloneRaisesNotImplemented : Prop :=
  (∀ (s : State) (l : Option Text) (ops : List Operand),
    exec (.exit l ops) s =
      .fault (if ops = [] then .notImplemented (text "exit") else .badOperands)) ∧
  ∀ (i : Instr) (s : State) (opcode : Text), exec i s = .fault (.notImplemented opcode) →
    i.operation?.map Prod.fst = some 42

/-- 40_lines_and_nop.md R145, 60_exceptions.md R305: an unknown operation raises UnknownOperation with
its opcode, whatever its operands, and nothing else does. -/
def Obligations.UnknownOperationsAloneRaiseUnknownOperation : Prop :=
  (∀ (s : State) (l : Option Text) (opcode : Text) (ops : List Operand),
    exec (.unknownOp l opcode ops) s = .fault (.unknownOperation opcode)) ∧
  ∀ (i : Instr) (s : State) (opcode : Text), exec i s = .fault (.unknownOperation opcode) →
    ∃ l ops, i = .unknownOp l opcode ops

/-- 40_lines_and_nop.md R140 to R144: section directives, data declarations, bare labels and `nop`
complete with the pc advanced and nothing else changed. -/
def Obligations.NonOperationLinesOnlyAdvance : Prop :=
  ∀ (s : State) (keyword label : Text) (l : Option Text) (count : Nat) (values : List Int),
    exec (.sectionLine keyword) s = .next { s with pc := wrap s.cfg.xlen (s.pc + 1) } ∧
    exec (.spaceLine label count) s = .next { s with pc := wrap s.cfg.xlen (s.pc + 1) } ∧
    exec (.wordLine label values) s = .next { s with pc := wrap s.cfg.xlen (s.pc + 1) } ∧
    exec (.labelLine label) s = .next { s with pc := wrap s.cfg.xlen (s.pc + 1) } ∧
    exec (.nop l []) s = .next { s with pc := wrap s.cfg.xlen (s.pc + 1) }

/-- 30_encoding.md R106, 60_exceptions.md R310: every operation whose operands do not fit its format
raises BadOperands, and one whose operands fit never does. -/
def Obligations.BadOperandsExactlyWhenTheFormatFails : Prop :=
  ∀ (i : Instr) (s : State) (id : Nat) (l : Option Text) (ops : List Operand) (f : Format),
    i.operation? = some (id, l, ops) → formats[id]? = some f →
    (exec i s = .fault .badOperands ↔ formatFits f ops = false)

/-- 60_exceptions.md R313, with 41_alu.md R150, 42_memory_unit.md R190 to R192 and 43_jump_unit.md R210:
of the register errors an instruction raises the first in the order of evaluation: its sources in operand
order (for `lw` the base), then the computation, then the destination. -/
def Obligations.RegisterErrorsComeInOrder : Prop :=
  ∀ (i : Instr) (s : State) (id : Nat) (l : Option Text) (f : Format) (x y z : Operand) (k : Int),
    formats[id]? = some f →
    (f = .fr3 → i.operation? = some (id, l, [x, y, z]) →
      (namesRegister s.cfg y = false → exec i s = .fault (.unknownRegister y)) ∧
      (namesRegister s.cfg y = true → namesRegister s.cfg z = false →
        exec i s = .fault (.unknownRegister z)) ∧
      (namesRegister s.cfg y = true → namesRegister s.cfg z = true → namesRegister s.cfg x = false →
        exec i s = .fault
          (if id = 4 ∧ readReg s z = .ok 0 then .divideByZero else .unknownRegister x))) ∧
    (f = .fi → i.operation? = some (id, l, [x, y, .int k]) →
      (namesRegister s.cfg y = false → exec i s = .fault (.unknownRegister y)) ∧
      (namesRegister s.cfg y = true → namesRegister s.cfg x = false →
        exec i s = .fault (.unknownRegister x))) ∧
    (f = .fr2 → i.operation? = some (id, l, [x, y]) →
      (namesRegister s.cfg y = false → exec i s = .fault (.unknownRegister y)) ∧
      (namesRegister s.cfg y = true → namesRegister s.cfg x = false →
        exec i s = .fault (.unknownRegister x))) ∧
    (f = .frs2 → i.operation? = some (id, l, [x, y]) →
      (namesRegister s.cfg x = false → exec i s = .fault (.unknownRegister x)) ∧
      (namesRegister s.cfg x = true → namesRegister s.cfg y = false →
        exec i s = .fault (.unknownRegister y))) ∧
    (f = .fb → i.operation? = some (id, l, [x, y, z]) →
      (namesRegister s.cfg x = false → exec i s = .fault (.unknownRegister x)) ∧
      (namesRegister s.cfg x = true → namesRegister s.cfg y = false →
        exec i s = .fault (.unknownRegister y))) ∧
    (f = .fr1 → i.operation? = some (id, l, [x]) → namesRegister s.cfg x = false →
      exec i s = .fault (.unknownRegister x)) ∧
    (f = .fri → i.operation? = some (id, l, [x, .int k]) → namesRegister s.cfg x = false →
      exec i s = .fault (.unknownRegister x)) ∧
    (i = .lw l [x, .int k, y] →
      (namesRegister s.cfg y = false → exec i s = .fault (.unknownRegister y)) ∧
      (∀ base, readReg s y = .ok base → 0 ≤ wordIndex s.cfg base k →
        wordIndex s.cfg base k < s.dmem.length → namesRegister s.cfg x = false →
        exec i s = .fault (.unknownRegister x))) ∧
    (i = .sw l [x, .int k, y] →
      (namesRegister s.cfg x = false → exec i s = .fault (.unknownRegister x)) ∧
      (namesRegister s.cfg x = true → namesRegister s.cfg y = false →
        exec i s = .fault (.unknownRegister y))) ∧
    (∀ name base, i = .la l [x, .sym name] → s.dlabel.lookup name = some base →
      namesRegister s.cfg x = false → exec i s = .fault (.unknownRegister x))

/-! ### What no instruction does -/

/-- 60_exceptions.md R300 to R311 and 44_syscall_unit.md R230: an instruction raises only the kinds of a
step, each from the instructions its rule names, and the model refuses none: UnknownRegister from the
operations with a register operand, op ids 1 to 36, where the configuration is an admitted one and so
names the system-call registers; UnknownOperation from unknown operations alone. That a read whose
provider never answers is a fault, and a fault of the two reads alone, is the model's form of it
(log 7). -/
def Obligations.StepErrorsComeFromTheirInstructions : Prop :=
  ∀ (i : Instr) (s : State),
    (∀ r, exec i s ≠ .refused r) ∧
    ∀ e, exec i s = .fault e →
      match e with
      | .unknownRegister _ => ∃ id, i.operation?.map Prod.fst = some id ∧ 1 ≤ id ∧ id ≠ 37 ∧
          (s.cfg.valid = true → id ≤ 36)
      | .unknownLabel _ => unitOfLine i = some .jump ∨ i.operation?.map Prod.fst = some 24
      | .addressOutOfRange _ => i.operation?.map Prod.fst = some 21 ∨ i.operation?.map Prod.fst = some 22
      | .unknownOperation opcode => ∃ l ops, i = .unknownOp l opcode ops
      | .notImplemented _ => i.operation?.map Prod.fst = some 42
      | .divideByZero => i.operation?.map Prod.fst = some 4
      | .badOperands => i.operation? ≠ none
      | .inputNeverAnswers => i.operation?.map Prod.fst = some 40 ∨ i.operation?.map Prod.fst = some 41
      | .decodeError _ => False
      | .missingTextSection => False
      | .emptyProgram => False
      | .duplicateLabel _ => False

/-- 20_memory.md R70, R72, 70_reset_and_hazards.md R340: no instruction changes the program, the label
maps, the start index or the length of the data segment (nor the configuration). -/
def Obligations.NoInstructionChangesTheProgram : Prop :=
  ∀ (i : Instr) (s t : State), exec i s = .next t →
    t.prog = s.prog ∧ t.clabel = s.clabel ∧ t.dlabel = s.dlabel ∧ t.textStart = s.textStart ∧
    t.dmem.length = s.dmem.length ∧ t.cfg = s.cfg ∧ t.latchDraws = s.latchDraws ∧
    t.inputSilent = s.inputSilent

/-- 20_memory.md R64, 10_state.md R27, 44_syscall_unit.md R236 and 45_branch_predictor.md R255: only `sw`
changes the data segment; only `mult`, `mthi` and `mtlo` the accumulators; only the print operations the
output and only the reads take an answer; only the Jump Unit the predictor and the latches. -/
def Obligations.EachStateHasItsOwnWriters : Prop :=
  ∀ (i : Instr) (s t : State), exec i s = .next t →
    (i.operation?.map Prod.fst ≠ some 22 → t.dmem = s.dmem) ∧
    (i.operation?.map Prod.fst ≠ some 3 → i.operation?.map Prod.fst ≠ some 28 → t.hi = s.hi) ∧
    (i.operation?.map Prod.fst ≠ some 3 → i.operation?.map Prod.fst ≠ some 29 → t.lo = s.lo) ∧
    (i.operation?.map Prod.fst ≠ some 38 → i.operation?.map Prod.fst ≠ some 39 → t.out = s.out) ∧
    (i.operation?.map Prod.fst ≠ some 40 → i.operation?.map Prod.fst ≠ some 41 →
      t.draws = s.draws) ∧
    (unitOfLine i ≠ some .jump →
      t.hist = s.hist ∧ t.bhts = s.bhts ∧ t.lastValid = s.lastValid ∧ t.lastPred = s.lastPred ∧
      t.lastOutcome = s.lastOutcome ∧ t.lastAddr = s.lastAddr)

/-- 41_alu.md R150, 42_memory_unit.md R190, 43_jump_unit.md R210, 44_syscall_unit.md R230: an instruction
changes at most the register its first operand names (the result register, for a read); a branch, a
store, `mult`, `mthi` and `mtlo` change none. -/
def Obligations.AtMostOneRegisterChanges : Prop :=
  ∀ (i : Instr) (s t : State), exec i s = .next t →
    (∀ o : Operand, i.operands.head? ≠ some o → o ≠ .sym s.cfg.sysResReg →
      readReg t o = readReg s o) ∧
    (i.operation?.map Prod.fst ≠ some 40 → i.operation?.map Prod.fst ≠ some 41 →
      ∀ o : Operand, i.operands.head? ≠ some o → readReg t o = readReg s o) ∧
    ((unitOfLine i = none ∨ unitOfLine i = some .jump ∨ i.operation?.map Prod.fst ∈
        [some 3, some 22, some 28, some 29, some 38, some 39]) → t.regs = s.regs)

/-- 10_state.md R26, 43_jump_unit.md R219: an instruction leaves the pc at the next line, or, for a
Jump-Unit opcode, at the line its last operand labels; nothing else ever moves it. -/
def Obligations.ThePcMovesToTheNextLineOrATarget : Prop :=
  ∀ (i : Instr) (s t : State), exec i s = .next t →
    t.pc = wrap s.cfg.xlen (s.pc + 1) ∨
    (unitOfLine i = some .jump ∧ ∃ name line, i.operands.getLast? = some (.sym name) ∧
      s.clabel.lookup name = some line ∧ t.pc = wrap s.cfg.xlen line)

/-! ### The step, and the invariant -/

/-- 46_cpu.md R274: with the pc below the program's length, a step is the meaning of the line the pc
indexes, at that state. -/
def Obligations.StepRunsTheLineAtThePc : Prop :=
  ∀ (s : State) (i : Instr), 0 ≤ s.pc → s.prog[s.pc.toNat]? = some i → step s = exec i s

/-- 46_cpu.md R274, 60_exceptions.md R323: at the terminal condition a step changes nothing and the STEP
command returns HALTED, however often it is repeated. That the step itself answers the same state is
the model's form of it (log 4). -/
def Obligations.AHaltedMachineStaysAsItIs : Prop :=
  ∀ s : State, 0 ≤ s.pc → (s.prog.length : Int) ≤ s.pc →
    step s = .next s ∧ command .step s = some (.halted, s) ∧
    ∀ n : Nat, Host.Core.run Sys2Proof.core n s = .next s

/-- 46_cpu.md R281, 60_exceptions.md R314, R315: a STEP that returns an error leaves the state as it was,
and the next STEP returns the same error. -/
def Obligations.AFailedStepChangesNothing : Prop :=
  ∀ (s t : State) (e : Fault), command .step s = some (.error e, t) →
    t = s ∧ command .step t = some (.error e, t)

/-- 10_state.md R22, R23, R26, R29, R30, R33, R35, R38: every step keeps the invariant of the machine:
values in range, the pc in `[0, len(prog)]`, labels within their spaces, words in range, `2 ^ HIST_BITS`
tables of `2 ^ KEY_BITS` counters in `[0, CTR_MAX]` and a history that selects one of them. -/
def Obligations.EveryStepKeepsTheInvariant : Prop :=
  ∀ s t : State, s.wf = true → step s = .next t → t.wf = true

/-- 10_state.md R46, 70_reset_and_hazards.md R333: the power-on state of every admitted instance whose
sizes the constraints allow meets the invariant, the reference instance's among them. -/
def Obligations.PowerOnMeetsTheInvariant : Prop :=
  State.reset.wf = true ∧ ∀ c : Config, c.valid = true → (State.powerOn c).wf = true

/-- 46_cpu.md R270 and 70_reset_and_hazards.md R330: a successful load and a reset of a machine that
meets the invariant leave one that does. That the unspecified latch `last_addr` is then in the register
range is the model's choice (log 9). -/
def Obligations.LoadAndResetKeepTheInvariant : Prop :=
  ∀ (s t : State) (program : List Instr), s.wf = true →
    (resetBlock s).wf = true ∧ (load program s = .next t → t.wf = true)

/-- 10_state.md R46, 70_reset_and_hazards.md R330 to R332: what `reset` leaves, and that it touches
neither the output list nor the input oracle: the next read draws the answer it would have drawn. The
display latches are not said: the spec leaves them unspecified. -/
def Obligations.ResetClearsTheBlock : Prop :=
  ∀ s : State, s.wf = true →
    (∀ o a, readReg (resetBlock s) o = .ok a → a = 0) ∧
    (resetBlock s).pc = 0 ∧ (resetBlock s).hi = 0 ∧ (resetBlock s).lo = 0 ∧
    (resetBlock s).dmem = [] ∧ (resetBlock s).dlabel = [] ∧ (resetBlock s).prog = [] ∧
    (resetBlock s).clabel = [] ∧ (resetBlock s).textStart = 0 ∧ (resetBlock s).hist = 0 ∧
    (resetBlock s).bhts = List.replicate (2 ^ s.cfg.histBits)
      ⟨List.replicate (2 ^ s.cfg.keyBits) 0, 0, 0⟩ ∧
    (resetBlock s).lastValid = false ∧ (resetBlock s).out = s.out ∧ (resetBlock s).draws = s.draws ∧
    (resetBlock s).inputSilent = s.inputSilent ∧ (resetBlock s).cfg = s.cfg ∧
    command .reset s = some (.ok, resetBlock s)

/-! ### The predictor -/

/-- 45_branch_predictor.md R242: a counter predicts taken exactly when it exceeds `CTR_MAX / 2`; and that
is when its most significant bit is set, a form that R242 derives from the first. -/
def Obligations.TakenIsTheTopBitOfTheCounter : Prop :=
  ∀ (c : Config) (n : Nat), 1 ≤ c.ctrBits → n ≤ ctrMax c →
    (counterTaken c n = true ↔ (ctrMax c : Rat) / 2 < (n : Rat)) ∧
    counterTaken c n = n.testBit (c.ctrBits - 1)

/-- 45_branch_predictor.md R241, R243, R247, R248: the key of an address is its remainder modulo
`2 ^ KEY_BITS`; a table predicts taken exactly when its counter at the key exceeds `CTR_MAX / 2`; and the
CBP predicts as the table the history selects. For a negative address the remainder is the spec's own
choice (D32). -/
def Obligations.PredictionsReadTheKeyedCounter : Prop :=
  ∀ (s : State) (address : Int), 1 ≤ s.cfg.ctrBits → predictorWf s = true →
    predictorKey s.cfg address = (address % (2 : Int) ^ s.cfg.keyBits).toNat ∧
    (∀ b ∈ s.bhts, ∃ n, b.ctr[(address % (2 : Int) ^ s.cfg.keyBits).toNat]? = some n ∧
      (bhtPredict s.cfg b address = true ↔ ((2 : Rat) ^ s.cfg.ctrBits - 1) / 2 < (n : Rat))) ∧
    ∃ b, s.bhts[s.hist]? = some b ∧ cbpPredict s address = bhtPredict s.cfg b address

/-- 45_branch_predictor.md R244, with the key of R241 and the prediction of R242 written out:
`BHT.update` moves the counter at the key one up or one down, held in `[0, CTR_MAX]`, leaves every other
counter, counts one tally up by whether the prior prediction was right, and returns the prior
prediction. For a negative address the key, a Euclidean remainder, is the spec's own choice (D32). -/
def Obligations.BhtUpdateTrainsOneCounter : Prop :=
  ∀ (c : Config) (b : Bht) (address : Int) (outcome : Bool) (key : Nat) (prior : Bool),
    b.wf c = true → key = (address % (2 : Int) ^ c.keyBits).toNat →
    prior = decide (2 ^ c.ctrBits - 1 < 2 * b.ctr.getD key 0) →
    (bhtUpdate c b address outcome).1.ctr = b.ctr.set key
      (if outcome then min (b.ctr.getD key 0 + 1) (2 ^ c.ctrBits - 1) else b.ctr.getD key 0 - 1) ∧
    key < b.ctr.length ∧
    (bhtUpdate c b address outcome).1.correct = b.correct + (if prior = outcome then 1 else 0) ∧
    (bhtUpdate c b address outcome).1.incorrect = b.incorrect + (if prior = outcome then 0 else 1) ∧
    (bhtUpdate c b address outcome).2 = prior ∧ bhtPredict c b address = prior

/-- 45_branch_predictor.md R244, with the key of R241 written out: repeated updates with one outcome
drive the counter to its bound and hold it there. For a negative address the key, a Euclidean remainder,
is the spec's own choice (D32). -/
def Obligations.RepeatedOutcomesSaturateTheCounter : Prop :=
  ∀ (c : Config) (b : Bht) (address : Int) (n : Nat), b.wf c = true → 2 ^ c.ctrBits - 1 ≤ n →
    ((List.replicate n true).foldl (fun b o => (bhtUpdate c b address o).1) b).ctr[
        (address % (2 : Int) ^ c.keyBits).toNat]? = some (2 ^ c.ctrBits - 1) ∧
    ((List.replicate n false).foldl (fun b o => (bhtUpdate c b address o).1) b).ctr[
        (address % (2 : Int) ^ c.keyBits).toNat]? = some 0

/-- 45_branch_predictor.md R250: after at least `HIST_BITS` updates the history is the integer whose
binary digits are the last `HIST_BITS` outcomes, the oldest the most significant. -/
def Obligations.HistoryHoldsTheLastOutcomes : Prop :=
  ∀ (s : State) (updates : List (Int × Bool)), s.hist < 2 ^ s.cfg.histBits →
    s.cfg.histBits ≤ updates.length →
    (updates.foldl (fun s u => cbpUpdate s u.1 u.2) s).hist =
      (updates.drop (updates.length - s.cfg.histBits)).foldl
        (fun n u => 2 * n + if u.2 then 1 else 0) 0

/-- 45_branch_predictor.md R249, R250: `CBP.update` updates the table the history selects before its
shift, and no other; then the outcome is shifted into the history as its bit 0 and the oldest outcome
falls out. -/
def Obligations.CbpUpdateTouchesOnlyTheActiveTable : Prop :=
  ∀ (s : State) (address : Int) (outcome : Bool), predictorWf s = true →
    (cbpUpdate s address outcome).bhts[s.hist]? =
      some (bhtUpdate s.cfg s.activeBht address outcome).1 ∧
    (∀ h, h ≠ s.hist → (cbpUpdate s address outcome).bhts[h]? = s.bhts[h]?) ∧
    (cbpUpdate s address outcome).hist =
      (2 * s.hist + if outcome then 1 else 0) % 2 ^ s.cfg.histBits

/-- 45_branch_predictor.md R255: a completed instruction adds one update, over all tables, if it is a
Jump-Unit opcode, and none otherwise. -/
def Obligations.OneUpdatePerCompletedJump : Prop :=
  ∀ (i : Instr) (s t : State), predictorWf s = true → exec i s = .next t →
    totalUpdates t = totalUpdates s + (if unitOfLine i = some .jump then 1 else 0)

/-- 45_branch_predictor.md R246, R252: a table's accuracy is 0 with no update, else the share of correct
ones, and lies in `[0, 1]`; the aggregate is the product of the tables' shares, an idle table counting
as 1, and lies in `[0, 1]`; idle tables leave it as it is. -/
def Obligations.AccuraciesAreShares : Prop :=
  ∀ (s : State) (b : Bht),
    0 ≤ bhtAccuracy b ∧ bhtAccuracy b ≤ 1 ∧
    (b.correct + b.incorrect = 0 → bhtAccuracy b = 0) ∧
    (b.correct + b.incorrect ≠ 0 →
      bhtAccuracy b * ((b.correct : Rat) + (b.incorrect : Rat)) = (b.correct : Rat)) ∧
    aggregateAccuracy s = (s.bhts.map fun b => if b.correct + b.incorrect = 0 then 1
      else (b.correct : Rat) / ((b.correct : Rat) + (b.incorrect : Rat))).prod ∧
    0 ≤ aggregateAccuracy s ∧ aggregateAccuracy s ≤ 1 ∧
    aggregateAccuracy s =
      aggregateAccuracy { s with bhts := s.bhts.filter fun b => decide (b.updates ≠ 0) }

/-- 45_branch_predictor.md R253 and 95_test_vectors.md part 4: two machines that differ only in the
predictor, its latches and its parameters stay so: after any number of steps they have raised the same
error or agree on every register, the pc, `hi`, `lo`, the data segment and the output; and where both then
complete a Jump-Unit opcode they have the same outcome at the same address. The two draw the same answers
of the input oracle because they agree on the counter `draws`, the model's form of one provider asked by
both (log 6). -/
def Obligations.ThePredictorNeverAffectsExecution : Prop :=
  ∀ (n : Nat) (s t : State), sameArchitecture s t →
    sameOutcome (Host.Core.run Sys2Proof.core n s) (Host.Core.run Sys2Proof.core n t) ∧
    ∀ (s' t' u v : State) (i : Instr), Host.Core.run Sys2Proof.core n s = .next s' →
      Host.Core.run Sys2Proof.core n t = .next t' → s'.prog[s'.pc.toNat]? = some i →
      unitOfLine i = some .jump → step s' = .next u → step t' = .next v →
      u.lastOutcome = v.lastOutcome ∧ u.lastAddr = v.lastAddr

/-! ### load, LOAD and RUN -/

/-- 46_cpu.md R271 and 00_scope.md R9: the outcome of `load`, by its checks in their order; a failed load
gives no state. That a program of more than `MAX` lines is refused is the model's own stop, no behaviour
of the hardware (log 14). -/
def Obligations.LoadChecksComeInOrder : Prop :=
  ∀ (s : State) (program : List Instr),
    (maxVal s.cfg.xlen < program.length → load program s = .refused .programTooLong) ∧
    ((program.length : Int) ≤ maxVal s.cfg.xlen →
      ((∀ i ∈ program, isTextMarker i = false) → load program s = .fault .missingTextSection) ∧
      ∀ (before rest : List Instr) (m : Instr), program = before ++ m :: rest →
        (∀ i ∈ before, isTextMarker i = false) → isTextMarker m = true →
        (rest = [] → load program s = .fault .emptyProgram) ∧
        (rest ≠ [] → ¬ (programLabels program).Nodup →
          ∃ l ∈ programLabels program, load program s = .fault (.duplicateLabel l)) ∧
        (rest ≠ [] → (programLabels program).Nodup →
          load program s = .next (installProgram program (before.length + 1) (resetBlock s))))

/-- 46_cpu.md R270, R272, R273 and 42_memory_unit.md R194: what a successful load leaves: the program,
the pc and the start index after the first `.text` marker, the data of every declaration in order, every
label at its line, every declaration's label at the number of words declared before it, no other label
in the data label map; all else as after reset, the output and the input oracle kept. -/
def Obligations.LoadBuildsTheProgramsTables : Prop :=
  ∀ (s t : State) (program : List Instr), load program s = .next t →
    t.prog = program ∧ t.pc = t.textStart ∧
    (∃ m, t.textStart = m + 1 ∧ (program[m]?).map isTextMarker = some true ∧
      ∀ k < m, (program[k]?).map isTextMarker = some false) ∧
    t.dmem = ((program.filterMap Instr.dataDecl).map Prod.snd).flatten.map (wrap s.cfg.xlen) ∧
    (∀ (before rest : List Instr) (i : Instr) (l : Text), program = before ++ i :: rest →
      i.lineLabel = some l → t.clabel.lookup l = some before.length) ∧
    (∀ (before rest : List Instr) (i : Instr) (l : Text) (values : List Int),
      program = before ++ i :: rest → i.dataDecl = some (l, values) →
      t.dlabel.lookup l =
        some ((before.filterMap Instr.dataDecl).map fun d => d.2.length).sum) ∧
    (∀ (before rest : List Instr) (i : Instr) (l : Text), program = before ++ i :: rest →
      i.lineLabel = some l → i.dataDecl = none → t.dlabel.lookup l = none) ∧
    (∀ l, l ∉ programLabels program → t.clabel.lookup l = none ∧ t.dlabel.lookup l = none) ∧
    t = { resetBlock s with
      prog := t.prog, pc := t.pc, textStart := t.textStart, dmem := t.dmem, clabel := t.clabel,
      dlabel := t.dlabel }

/-- 10_state.md R48, 20_memory.md R65: after a load the slices of the data-segment view, in order, are the
whole data segment. -/
def Obligations.DataViewSlicesMakeUpTheSegment : Prop :=
  ∀ (s t : State) (program : List Instr), load program s = .next t →
    ((dataView t).map Prod.snd).flatten = t.dmem

/-- 10_state.md R31: `set_data_by_label` returns the length the data segment had, appends the wrapped
values, records the label at that length, and changes no other label and nothing else. -/
def Obligations.SetDataReturnsTheBaseItRecords : Prop :=
  ∀ (s t : State) (label : Text) (values : List Int) (base : Nat),
    setDataByLabel s label values = (t, base) →
    base = s.dmem.length ∧ t.dmem = s.dmem ++ values.map (wrap s.cfg.xlen) ∧
    t.dlabel.lookup label = some base ∧
    (∀ l, l ≠ label → t.dlabel.lookup l = s.dlabel.lookup l) ∧
    t = { s with dmem := t.dmem, dlabel := t.dlabel }

/-- 46_cpu.md R283, 30_encoding.md R92: LOAD drops the blank lines, those of spaces and tabs alone (log 10),
and loads the records of the others, one a line, in order; with a line that does not decode it raises
DecodeError for the first such line. -/
def Obligations.LoadDecodesTheLinesInOrder : Prop :=
  ∀ (lines kept : List Text) (s : State),
    kept = lines.filter (fun line => !(line.all fun ch => ch == ' ' || ch == '\t')) →
    (∀ program, kept.map (fun l => (parse s.cfg.mnemonics l).toOption) = program.map some →
      loadLines lines s = load program s) ∧
    ∀ (before rest : List Text) (line : Text), kept = before ++ line :: rest →
      (∀ l ∈ before, (parse s.cfg.mnemonics l).toOption.isSome = true) →
      (parse s.cfg.mnemonics line).toOption = none →
      loadLines lines s = .fault (.decodeError line)

/-- 46_cpu.md R282, R284: a run has at most one end; it is never OK; a HALTED end of a machine that meets
the invariant has `pc = len(prog)`; and an error end is the state whose step raises that error. -/
def Obligations.ARunHasOneEnd : Prop :=
  ∀ (s t u : State) (r q : Status), RunEnds s r t →
    r ≠ .ok ∧ (RunEnds s q u → q = r ∧ u = t) ∧
    (s.wf = true → r = .halted → t.pc = t.prog.length) ∧
    (∀ e, r = .error e → step t = .fault e)

/-- 10_state.md R26, 46_cpu.md R274: no step of a machine that meets the invariant is refused, nor of any
machine it reaches, which meets the invariant too: the refusal of a negative pc, which is the model's own
(log 13), is not reached. So the one way for such a machine not to be safe is an error. -/
def Obligations.NoWellFormedMachineIsRefused : Prop :=
  ∀ s : State, s.wf = true →
    (∀ r, step s ≠ .refused r) ∧
    (∀ t, Reaches s t → t.wf = true ∧ ∀ r, step t ≠ .refused r) ∧
    (SafeFrom s ↔ ∀ t e, Reaches s t → step t ≠ .fault e)
end

