-- ==== Sys2Proof/Laws/State.lean ====
section
/-! SUPPORT. One lemma per field and update of the state: what the update writes and what it leaves. -/

namespace Sys2Proof.Machine

open Sys2Proof

/-! ### setPc -/

@[simp] theorem setPc_cfg (s : State) (v : Int) : (s.setPc v).cfg = s.cfg := rfl
@[simp] theorem setPc_regs (s : State) (v : Int) : (s.setPc v).regs = s.regs := rfl
@[simp] theorem setPc_pc (s : State) (v : Int) : (s.setPc v).pc = wrap s.cfg.xlen v := rfl
@[simp] theorem setPc_hi (s : State) (v : Int) : (s.setPc v).hi = s.hi := rfl
@[simp] theorem setPc_lo (s : State) (v : Int) : (s.setPc v).lo = s.lo := rfl
@[simp] theorem setPc_dmem (s : State) (v : Int) : (s.setPc v).dmem = s.dmem := rfl
@[simp] theorem setPc_dlabel (s : State) (v : Int) : (s.setPc v).dlabel = s.dlabel := rfl
@[simp] theorem setPc_prog (s : State) (v : Int) : (s.setPc v).prog = s.prog := rfl
@[simp] theorem setPc_clabel (s : State) (v : Int) : (s.setPc v).clabel = s.clabel := rfl
@[simp] theorem setPc_textStart (s : State) (v : Int) : (s.setPc v).textStart = s.textStart := rfl
@[simp] theorem setPc_hist (s : State) (v : Int) : (s.setPc v).hist = s.hist := rfl
@[simp] theorem setPc_bhts (s : State) (v : Int) : (s.setPc v).bhts = s.bhts := rfl
@[simp] theorem setPc_lastValid (s : State) (v : Int) : (s.setPc v).lastValid = s.lastValid := rfl
@[simp] theorem setPc_lastPred (s : State) (v : Int) : (s.setPc v).lastPred = s.lastPred := rfl
@[simp] theorem setPc_lastOutcome (s : State) (v : Int) :
    (s.setPc v).lastOutcome = s.lastOutcome := rfl
@[simp] theorem setPc_lastAddr (s : State) (v : Int) : (s.setPc v).lastAddr = s.lastAddr := rfl
@[simp] theorem setPc_out (s : State) (v : Int) : (s.setPc v).out = s.out := rfl
@[simp] theorem setPc_draws (s : State) (v : Int) : (s.setPc v).draws = s.draws := rfl
@[simp] theorem setPc_latchDraws (s : State) (v : Int) :
    (s.setPc v).latchDraws = s.latchDraws := rfl
@[simp] theorem setPc_inputSilent (s : State) (v : Int) :
    (s.setPc v).inputSilent = s.inputSilent := rfl

/-! ### advance -/

@[simp] theorem advance_cfg (s : State) : (s.advance).cfg = s.cfg := rfl
@[simp] theorem advance_regs (s : State) : (s.advance).regs = s.regs := rfl
@[simp] theorem advance_pc (s : State) : (s.advance).pc = wrap s.cfg.xlen (s.pc + 1) := rfl
@[simp] theorem advance_hi (s : State) : (s.advance).hi = s.hi := rfl
@[simp] theorem advance_lo (s : State) : (s.advance).lo = s.lo := rfl
@[simp] theorem advance_dmem (s : State) : (s.advance).dmem = s.dmem := rfl
@[simp] theorem advance_dlabel (s : State) : (s.advance).dlabel = s.dlabel := rfl
@[simp] theorem advance_prog (s : State) : (s.advance).prog = s.prog := rfl
@[simp] theorem advance_clabel (s : State) : (s.advance).clabel = s.clabel := rfl
@[simp] theorem advance_textStart (s : State) : (s.advance).textStart = s.textStart := rfl
@[simp] theorem advance_hist (s : State) : (s.advance).hist = s.hist := rfl
@[simp] theorem advance_bhts (s : State) : (s.advance).bhts = s.bhts := rfl
@[simp] theorem advance_lastValid (s : State) : (s.advance).lastValid = s.lastValid := rfl
@[simp] theorem advance_lastPred (s : State) : (s.advance).lastPred = s.lastPred := rfl
@[simp] theorem advance_lastOutcome (s : State) : (s.advance).lastOutcome = s.lastOutcome := rfl
@[simp] theorem advance_lastAddr (s : State) : (s.advance).lastAddr = s.lastAddr := rfl
@[simp] theorem advance_out (s : State) : (s.advance).out = s.out := rfl
@[simp] theorem advance_draws (s : State) : (s.advance).draws = s.draws := rfl
@[simp] theorem advance_latchDraws (s : State) : (s.advance).latchDraws = s.latchDraws := rfl
@[simp] theorem advance_inputSilent (s : State) : (s.advance).inputSilent = s.inputSilent := rfl

/-! ### setReg -/

@[simp] theorem setReg_cfg (s : State) (k : Nat) (v : Int) : (s.setReg k v).cfg = s.cfg := rfl
@[simp] theorem setReg_regs (s : State) (k : Nat) (v : Int) :
    (s.setReg k v).regs = s.regs.set k (wrap s.cfg.xlen v) := rfl
@[simp] theorem setReg_pc (s : State) (k : Nat) (v : Int) : (s.setReg k v).pc = s.pc := rfl
@[simp] theorem setReg_hi (s : State) (k : Nat) (v : Int) : (s.setReg k v).hi = s.hi := rfl
@[simp] theorem setReg_lo (s : State) (k : Nat) (v : Int) : (s.setReg k v).lo = s.lo := rfl
@[simp] theorem setReg_dmem (s : State) (k : Nat) (v : Int) : (s.setReg k v).dmem = s.dmem := rfl
@[simp] theorem setReg_dlabel (s : State) (k : Nat) (v : Int) :
    (s.setReg k v).dlabel = s.dlabel := rfl
@[simp] theorem setReg_prog (s : State) (k : Nat) (v : Int) : (s.setReg k v).prog = s.prog := rfl
@[simp] theorem setReg_clabel (s : State) (k : Nat) (v : Int) :
    (s.setReg k v).clabel = s.clabel := rfl
@[simp] theorem setReg_textStart (s : State) (k : Nat) (v : Int) :
    (s.setReg k v).textStart = s.textStart := rfl
@[simp] theorem setReg_hist (s : State) (k : Nat) (v : Int) : (s.setReg k v).hist = s.hist := rfl
@[simp] theorem setReg_bhts (s : State) (k : Nat) (v : Int) : (s.setReg k v).bhts = s.bhts := rfl
@[simp] theorem setReg_lastValid (s : State) (k : Nat) (v : Int) :
    (s.setReg k v).lastValid = s.lastValid := rfl
@[simp] theorem setReg_lastPred (s : State) (k : Nat) (v : Int) :
    (s.setReg k v).lastPred = s.lastPred := rfl
@[simp] theorem setReg_lastOutcome (s : State) (k : Nat) (v : Int) :
    (s.setReg k v).lastOutcome = s.lastOutcome := rfl
@[simp] theorem setReg_lastAddr (s : State) (k : Nat) (v : Int) :
    (s.setReg k v).lastAddr = s.lastAddr := rfl
@[simp] theorem setReg_out (s : State) (k : Nat) (v : Int) : (s.setReg k v).out = s.out := rfl
@[simp] theorem setReg_draws (s : State) (k : Nat) (v : Int) : (s.setReg k v).draws = s.draws := rfl
@[simp] theorem setReg_latchDraws (s : State) (k : Nat) (v : Int) :
    (s.setReg k v).latchDraws = s.latchDraws := rfl
@[simp] theorem setReg_inputSilent (s : State) (k : Nat) (v : Int) :
    (s.setReg k v).inputSilent = s.inputSilent := rfl

/-! ### setHi -/

@[simp] theorem setHi_cfg (s : State) (v : Int) : (s.setHi v).cfg = s.cfg := rfl
@[simp] theorem setHi_regs (s : State) (v : Int) : (s.setHi v).regs = s.regs := rfl
@[simp] theorem setHi_pc (s : State) (v : Int) : (s.setHi v).pc = s.pc := rfl
@[simp] theorem setHi_hi (s : State) (v : Int) : (s.setHi v).hi = wrap s.cfg.xlen v := rfl
@[simp] theorem setHi_lo (s : State) (v : Int) : (s.setHi v).lo = s.lo := rfl
@[simp] theorem setHi_dmem (s : State) (v : Int) : (s.setHi v).dmem = s.dmem := rfl
@[simp] theorem setHi_dlabel (s : State) (v : Int) : (s.setHi v).dlabel = s.dlabel := rfl
@[simp] theorem setHi_prog (s : State) (v : Int) : (s.setHi v).prog = s.prog := rfl
@[simp] theorem setHi_clabel (s : State) (v : Int) : (s.setHi v).clabel = s.clabel := rfl
@[simp] theorem setHi_textStart (s : State) (v : Int) : (s.setHi v).textStart = s.textStart := rfl
@[simp] theorem setHi_hist (s : State) (v : Int) : (s.setHi v).hist = s.hist := rfl
@[simp] theorem setHi_bhts (s : State) (v : Int) : (s.setHi v).bhts = s.bhts := rfl
@[simp] theorem setHi_lastValid (s : State) (v : Int) : (s.setHi v).lastValid = s.lastValid := rfl
@[simp] theorem setHi_lastPred (s : State) (v : Int) : (s.setHi v).lastPred = s.lastPred := rfl
@[simp] theorem setHi_lastOutcome (s : State) (v : Int) :
    (s.setHi v).lastOutcome = s.lastOutcome := rfl
@[simp] theorem setHi_lastAddr (s : State) (v : Int) : (s.setHi v).lastAddr = s.lastAddr := rfl
@[simp] theorem setHi_out (s : State) (v : Int) : (s.setHi v).out = s.out := rfl
@[simp] theorem setHi_draws (s : State) (v : Int) : (s.setHi v).draws = s.draws := rfl
@[simp] theorem setHi_latchDraws (s : State) (v : Int) :
    (s.setHi v).latchDraws = s.latchDraws := rfl
@[simp] theorem setHi_inputSilent (s : State) (v : Int) :
    (s.setHi v).inputSilent = s.inputSilent := rfl

/-! ### setLo -/

@[simp] theorem setLo_cfg (s : State) (v : Int) : (s.setLo v).cfg = s.cfg := rfl
@[simp] theorem setLo_regs (s : State) (v : Int) : (s.setLo v).regs = s.regs := rfl
@[simp] theorem setLo_pc (s : State) (v : Int) : (s.setLo v).pc = s.pc := rfl
@[simp] theorem setLo_hi (s : State) (v : Int) : (s.setLo v).hi = s.hi := rfl
@[simp] theorem setLo_lo (s : State) (v : Int) : (s.setLo v).lo = wrap s.cfg.xlen v := rfl
@[simp] theorem setLo_dmem (s : State) (v : Int) : (s.setLo v).dmem = s.dmem := rfl
@[simp] theorem setLo_dlabel (s : State) (v : Int) : (s.setLo v).dlabel = s.dlabel := rfl
@[simp] theorem setLo_prog (s : State) (v : Int) : (s.setLo v).prog = s.prog := rfl
@[simp] theorem setLo_clabel (s : State) (v : Int) : (s.setLo v).clabel = s.clabel := rfl
@[simp] theorem setLo_textStart (s : State) (v : Int) : (s.setLo v).textStart = s.textStart := rfl
@[simp] theorem setLo_hist (s : State) (v : Int) : (s.setLo v).hist = s.hist := rfl
@[simp] theorem setLo_bhts (s : State) (v : Int) : (s.setLo v).bhts = s.bhts := rfl
@[simp] theorem setLo_lastValid (s : State) (v : Int) : (s.setLo v).lastValid = s.lastValid := rfl
@[simp] theorem setLo_lastPred (s : State) (v : Int) : (s.setLo v).lastPred = s.lastPred := rfl
@[simp] theorem setLo_lastOutcome (s : State) (v : Int) :
    (s.setLo v).lastOutcome = s.lastOutcome := rfl
@[simp] theorem setLo_lastAddr (s : State) (v : Int) : (s.setLo v).lastAddr = s.lastAddr := rfl
@[simp] theorem setLo_out (s : State) (v : Int) : (s.setLo v).out = s.out := rfl
@[simp] theorem setLo_draws (s : State) (v : Int) : (s.setLo v).draws = s.draws := rfl
@[simp] theorem setLo_latchDraws (s : State) (v : Int) :
    (s.setLo v).latchDraws = s.latchDraws := rfl
@[simp] theorem setLo_inputSilent (s : State) (v : Int) :
    (s.setLo v).inputSilent = s.inputSilent := rfl

/-! ### setWord -/

@[simp] theorem setWord_cfg (s : State) (k : Nat) (v : Int) : (s.setWord k v).cfg = s.cfg := rfl
@[simp] theorem setWord_regs (s : State) (k : Nat) (v : Int) : (s.setWord k v).regs = s.regs := rfl
@[simp] theorem setWord_pc (s : State) (k : Nat) (v : Int) : (s.setWord k v).pc = s.pc := rfl
@[simp] theorem setWord_hi (s : State) (k : Nat) (v : Int) : (s.setWord k v).hi = s.hi := rfl
@[simp] theorem setWord_lo (s : State) (k : Nat) (v : Int) : (s.setWord k v).lo = s.lo := rfl
@[simp] theorem setWord_dmem (s : State) (k : Nat) (v : Int) :
    (s.setWord k v).dmem = s.dmem.set k (wrap s.cfg.xlen v) := rfl
@[simp] theorem setWord_dlabel (s : State) (k : Nat) (v : Int) :
    (s.setWord k v).dlabel = s.dlabel := rfl
@[simp] theorem setWord_prog (s : State) (k : Nat) (v : Int) : (s.setWord k v).prog = s.prog := rfl
@[simp] theorem setWord_clabel (s : State) (k : Nat) (v : Int) :
    (s.setWord k v).clabel = s.clabel := rfl
@[simp] theorem setWord_textStart (s : State) (k : Nat) (v : Int) :
    (s.setWord k v).textStart = s.textStart := rfl
@[simp] theorem setWord_hist (s : State) (k : Nat) (v : Int) : (s.setWord k v).hist = s.hist := rfl
@[simp] theorem setWord_bhts (s : State) (k : Nat) (v : Int) : (s.setWord k v).bhts = s.bhts := rfl
@[simp] theorem setWord_lastValid (s : State) (k : Nat) (v : Int) :
    (s.setWord k v).lastValid = s.lastValid := rfl
@[simp] theorem setWord_lastPred (s : State) (k : Nat) (v : Int) :
    (s.setWord k v).lastPred = s.lastPred := rfl
@[simp] theorem setWord_lastOutcome (s : State) (k : Nat) (v : Int) :
    (s.setWord k v).lastOutcome = s.lastOutcome := rfl
@[simp] theorem setWord_lastAddr (s : State) (k : Nat) (v : Int) :
    (s.setWord k v).lastAddr = s.lastAddr := rfl
@[simp] theorem setWord_out (s : State) (k : Nat) (v : Int) : (s.setWord k v).out = s.out := rfl
@[simp] theorem setWord_draws (s : State) (k : Nat) (v : Int) :
    (s.setWord k v).draws = s.draws := rfl
@[simp] theorem setWord_latchDraws (s : State) (k : Nat) (v : Int) :
    (s.setWord k v).latchDraws = s.latchDraws := rfl
@[simp] theorem setWord_inputSilent (s : State) (k : Nat) (v : Int) :
    (s.setWord k v).inputSilent = s.inputSilent := rfl

/-! ### drawn -/

@[simp] theorem drawn_cfg (s : State) : (s.drawn).cfg = s.cfg := rfl
@[simp] theorem drawn_regs (s : State) : (s.drawn).regs = s.regs := rfl
@[simp] theorem drawn_pc (s : State) : (s.drawn).pc = s.pc := rfl
@[simp] theorem drawn_hi (s : State) : (s.drawn).hi = s.hi := rfl
@[simp] theorem drawn_lo (s : State) : (s.drawn).lo = s.lo := rfl
@[simp] theorem drawn_dmem (s : State) : (s.drawn).dmem = s.dmem := rfl
@[simp] theorem drawn_dlabel (s : State) : (s.drawn).dlabel = s.dlabel := rfl
@[simp] theorem drawn_prog (s : State) : (s.drawn).prog = s.prog := rfl
@[simp] theorem drawn_clabel (s : State) : (s.drawn).clabel = s.clabel := rfl
@[simp] theorem drawn_textStart (s : State) : (s.drawn).textStart = s.textStart := rfl
@[simp] theorem drawn_hist (s : State) : (s.drawn).hist = s.hist := rfl
@[simp] theorem drawn_bhts (s : State) : (s.drawn).bhts = s.bhts := rfl
@[simp] theorem drawn_lastValid (s : State) : (s.drawn).lastValid = s.lastValid := rfl
@[simp] theorem drawn_lastPred (s : State) : (s.drawn).lastPred = s.lastPred := rfl
@[simp] theorem drawn_lastOutcome (s : State) : (s.drawn).lastOutcome = s.lastOutcome := rfl
@[simp] theorem drawn_lastAddr (s : State) : (s.drawn).lastAddr = s.lastAddr := rfl
@[simp] theorem drawn_out (s : State) : (s.drawn).out = s.out := rfl
@[simp] theorem drawn_draws (s : State) : (s.drawn).draws = s.draws + 1 := rfl
@[simp] theorem drawn_latchDraws (s : State) : (s.drawn).latchDraws = s.latchDraws := rfl
@[simp] theorem drawn_inputSilent (s : State) : (s.drawn).inputSilent = s.inputSilent := rfl

/-! ### emit -/

@[simp] theorem emit_cfg (s : State) (e : Event) : (s.emit e).cfg = s.cfg := rfl
@[simp] theorem emit_regs (s : State) (e : Event) : (s.emit e).regs = s.regs := rfl
@[simp] theorem emit_pc (s : State) (e : Event) : (s.emit e).pc = s.pc := rfl
@[simp] theorem emit_hi (s : State) (e : Event) : (s.emit e).hi = s.hi := rfl
@[simp] theorem emit_lo (s : State) (e : Event) : (s.emit e).lo = s.lo := rfl
@[simp] theorem emit_dmem (s : State) (e : Event) : (s.emit e).dmem = s.dmem := rfl
@[simp] theorem emit_dlabel (s : State) (e : Event) : (s.emit e).dlabel = s.dlabel := rfl
@[simp] theorem emit_prog (s : State) (e : Event) : (s.emit e).prog = s.prog := rfl
@[simp] theorem emit_clabel (s : State) (e : Event) : (s.emit e).clabel = s.clabel := rfl
@[simp] theorem emit_textStart (s : State) (e : Event) : (s.emit e).textStart = s.textStart := rfl
@[simp] theorem emit_hist (s : State) (e : Event) : (s.emit e).hist = s.hist := rfl
@[simp] theorem emit_bhts (s : State) (e : Event) : (s.emit e).bhts = s.bhts := rfl
@[simp] theorem emit_lastValid (s : State) (e : Event) : (s.emit e).lastValid = s.lastValid := rfl
@[simp] theorem emit_lastPred (s : State) (e : Event) : (s.emit e).lastPred = s.lastPred := rfl
@[simp] theorem emit_lastOutcome (s : State) (e : Event) :
    (s.emit e).lastOutcome = s.lastOutcome := rfl
@[simp] theorem emit_lastAddr (s : State) (e : Event) : (s.emit e).lastAddr = s.lastAddr := rfl
@[simp] theorem emit_out (s : State) (e : Event) : (s.emit e).out = s.out ++ [e] := rfl
@[simp] theorem emit_draws (s : State) (e : Event) : (s.emit e).draws = s.draws := rfl
@[simp] theorem emit_latchDraws (s : State) (e : Event) :
    (s.emit e).latchDraws = s.latchDraws := rfl
@[simp] theorem emit_inputSilent (s : State) (e : Event) :
    (s.emit e).inputSilent = s.inputSilent := rfl

/-! ### latch -/

@[simp] theorem latch_cfg (s : State) (p o : Bool) (a : Int) : (s.latch p o a).cfg = s.cfg := rfl
@[simp] theorem latch_regs (s : State) (p o : Bool) (a : Int) : (s.latch p o a).regs = s.regs := rfl
@[simp] theorem latch_pc (s : State) (p o : Bool) (a : Int) : (s.latch p o a).pc = s.pc := rfl
@[simp] theorem latch_hi (s : State) (p o : Bool) (a : Int) : (s.latch p o a).hi = s.hi := rfl
@[simp] theorem latch_lo (s : State) (p o : Bool) (a : Int) : (s.latch p o a).lo = s.lo := rfl
@[simp] theorem latch_dmem (s : State) (p o : Bool) (a : Int) : (s.latch p o a).dmem = s.dmem := rfl
@[simp] theorem latch_dlabel (s : State) (p o : Bool) (a : Int) :
    (s.latch p o a).dlabel = s.dlabel := rfl
@[simp] theorem latch_prog (s : State) (p o : Bool) (a : Int) : (s.latch p o a).prog = s.prog := rfl
@[simp] theorem latch_clabel (s : State) (p o : Bool) (a : Int) :
    (s.latch p o a).clabel = s.clabel := rfl
@[simp] theorem latch_textStart (s : State) (p o : Bool) (a : Int) :
    (s.latch p o a).textStart = s.textStart := rfl
@[simp] theorem latch_hist (s : State) (p o : Bool) (a : Int) : (s.latch p o a).hist = s.hist := rfl
@[simp] theorem latch_bhts (s : State) (p o : Bool) (a : Int) : (s.latch p o a).bhts = s.bhts := rfl
@[simp] theorem latch_lastValid (s : State) (p o : Bool) (a : Int) :
    (s.latch p o a).lastValid = true := rfl
@[simp] theorem latch_lastPred (s : State) (p o : Bool) (a : Int) :
    (s.latch p o a).lastPred = p := rfl
@[simp] theorem latch_lastOutcome (s : State) (p o : Bool) (a : Int) :
    (s.latch p o a).lastOutcome = o := rfl
@[simp] theorem latch_lastAddr (s : State) (p o : Bool) (a : Int) :
    (s.latch p o a).lastAddr = wrap s.cfg.xlen a := rfl
@[simp] theorem latch_out (s : State) (p o : Bool) (a : Int) : (s.latch p o a).out = s.out := rfl
@[simp] theorem latch_draws (s : State) (p o : Bool) (a : Int) :
    (s.latch p o a).draws = s.draws := rfl
@[simp] theorem latch_latchDraws (s : State) (p o : Bool) (a : Int) :
    (s.latch p o a).latchDraws = s.latchDraws := rfl
@[simp] theorem latch_inputSilent (s : State) (p o : Bool) (a : Int) :
    (s.latch p o a).inputSilent = s.inputSilent := rfl

/-! ### cbpUpdate -/

@[simp] theorem cbpUpdate_cfg (s : State) (a : Int) (o : Bool) :
    (cbpUpdate s a o).cfg = s.cfg := rfl
@[simp] theorem cbpUpdate_regs (s : State) (a : Int) (o : Bool) :
    (cbpUpdate s a o).regs = s.regs := rfl
@[simp] theorem cbpUpdate_pc (s : State) (a : Int) (o : Bool) : (cbpUpdate s a o).pc = s.pc := rfl
@[simp] theorem cbpUpdate_hi (s : State) (a : Int) (o : Bool) : (cbpUpdate s a o).hi = s.hi := rfl
@[simp] theorem cbpUpdate_lo (s : State) (a : Int) (o : Bool) : (cbpUpdate s a o).lo = s.lo := rfl
@[simp] theorem cbpUpdate_dmem (s : State) (a : Int) (o : Bool) :
    (cbpUpdate s a o).dmem = s.dmem := rfl
@[simp] theorem cbpUpdate_dlabel (s : State) (a : Int) (o : Bool) :
    (cbpUpdate s a o).dlabel = s.dlabel := rfl
@[simp] theorem cbpUpdate_prog (s : State) (a : Int) (o : Bool) :
    (cbpUpdate s a o).prog = s.prog := rfl
@[simp] theorem cbpUpdate_clabel (s : State) (a : Int) (o : Bool) :
    (cbpUpdate s a o).clabel = s.clabel := rfl
@[simp] theorem cbpUpdate_textStart (s : State) (a : Int) (o : Bool) :
    (cbpUpdate s a o).textStart = s.textStart := rfl
@[simp] theorem cbpUpdate_hist (s : State) (a : Int) (o : Bool) :
    (cbpUpdate s a o).hist = historyShift s.cfg s.hist o := rfl
@[simp] theorem cbpUpdate_bhts (s : State) (a : Int) (o : Bool) :
    (cbpUpdate s a o).bhts = s.bhts.modify s.hist fun b => (bhtUpdate s.cfg b a o).1 := rfl
@[simp] theorem cbpUpdate_lastValid (s : State) (a : Int) (o : Bool) :
    (cbpUpdate s a o).lastValid = s.lastValid := rfl
@[simp] theorem cbpUpdate_lastPred (s : State) (a : Int) (o : Bool) :
    (cbpUpdate s a o).lastPred = s.lastPred := rfl
@[simp] theorem cbpUpdate_lastOutcome (s : State) (a : Int) (o : Bool) :
    (cbpUpdate s a o).lastOutcome = s.lastOutcome := rfl
@[simp] theorem cbpUpdate_lastAddr (s : State) (a : Int) (o : Bool) :
    (cbpUpdate s a o).lastAddr = s.lastAddr := rfl
@[simp] theorem cbpUpdate_out (s : State) (a : Int) (o : Bool) :
    (cbpUpdate s a o).out = s.out := rfl
@[simp] theorem cbpUpdate_draws (s : State) (a : Int) (o : Bool) :
    (cbpUpdate s a o).draws = s.draws := rfl
@[simp] theorem cbpUpdate_latchDraws (s : State) (a : Int) (o : Bool) :
    (cbpUpdate s a o).latchDraws = s.latchDraws := rfl
@[simp] theorem cbpUpdate_inputSilent (s : State) (a : Int) (o : Bool) :
    (cbpUpdate s a o).inputSilent = s.inputSilent := rfl

/-! ### appendData -/

@[simp] theorem appendData_cfg (s : State) (l : Text) (vs : List Int) :
    (appendData s l vs).cfg = s.cfg := rfl
@[simp] theorem appendData_regs (s : State) (l : Text) (vs : List Int) :
    (appendData s l vs).regs = s.regs := rfl
@[simp] theorem appendData_pc (s : State) (l : Text) (vs : List Int) :
    (appendData s l vs).pc = s.pc := rfl
@[simp] theorem appendData_hi (s : State) (l : Text) (vs : List Int) :
    (appendData s l vs).hi = s.hi := rfl
@[simp] theorem appendData_lo (s : State) (l : Text) (vs : List Int) :
    (appendData s l vs).lo = s.lo := rfl
@[simp] theorem appendData_dmem (s : State) (l : Text) (vs : List Int) :
    (appendData s l vs).dmem = s.dmem ++ vs.map (wrap s.cfg.xlen) := rfl
@[simp] theorem appendData_dlabel (s : State) (l : Text) (vs : List Int) :
    (appendData s l vs).dlabel = LabelMap.put s.dlabel l s.dmem.length := rfl
@[simp] theorem appendData_prog (s : State) (l : Text) (vs : List Int) :
    (appendData s l vs).prog = s.prog := rfl
@[simp] theorem appendData_clabel (s : State) (l : Text) (vs : List Int) :
    (appendData s l vs).clabel = s.clabel := rfl
@[simp] theorem appendData_textStart (s : State) (l : Text) (vs : List Int) :
    (appendData s l vs).textStart = s.textStart := rfl
@[simp] theorem appendData_hist (s : State) (l : Text) (vs : List Int) :
    (appendData s l vs).hist = s.hist := rfl
@[simp] theorem appendData_bhts (s : State) (l : Text) (vs : List Int) :
    (appendData s l vs).bhts = s.bhts := rfl
@[simp] theorem appendData_lastValid (s : State) (l : Text) (vs : List Int) :
    (appendData s l vs).lastValid = s.lastValid := rfl
@[simp] theorem appendData_lastPred (s : State) (l : Text) (vs : List Int) :
    (appendData s l vs).lastPred = s.lastPred := rfl
@[simp] theorem appendData_lastOutcome (s : State) (l : Text) (vs : List Int) :
    (appendData s l vs).lastOutcome = s.lastOutcome := rfl
@[simp] theorem appendData_lastAddr (s : State) (l : Text) (vs : List Int) :
    (appendData s l vs).lastAddr = s.lastAddr := rfl
@[simp] theorem appendData_out (s : State) (l : Text) (vs : List Int) :
    (appendData s l vs).out = s.out := rfl
@[simp] theorem appendData_draws (s : State) (l : Text) (vs : List Int) :
    (appendData s l vs).draws = s.draws := rfl
@[simp] theorem appendData_latchDraws (s : State) (l : Text) (vs : List Int) :
    (appendData s l vs).latchDraws = s.latchDraws := rfl
@[simp] theorem appendData_inputSilent (s : State) (l : Text) (vs : List Int) :
    (appendData s l vs).inputSilent = s.inputSilent := rfl

/-! ### setDataByLabel -/

@[simp] theorem setDataByLabel_state (s : State) (l : Text) (vs : List Int) :
    (setDataByLabel s l vs).1 = appendData s l vs := rfl
@[simp] theorem setDataByLabel_base (s : State) (l : Text) (vs : List Int) :
    (setDataByLabel s l vs).2 = s.dmem.length := rfl

/-! ### resetBlock -/

@[simp] theorem resetBlock_cfg (s : State) : (resetBlock s).cfg = s.cfg := rfl
@[simp] theorem resetBlock_regs (s : State) : (resetBlock s).regs = s.regs.map fun _ => 0 := rfl
@[simp] theorem resetBlock_pc (s : State) : (resetBlock s).pc = 0 := rfl
@[simp] theorem resetBlock_hi (s : State) : (resetBlock s).hi = 0 := rfl
@[simp] theorem resetBlock_lo (s : State) : (resetBlock s).lo = 0 := rfl
@[simp] theorem resetBlock_dmem (s : State) : (resetBlock s).dmem = [] := rfl
@[simp] theorem resetBlock_dlabel (s : State) : (resetBlock s).dlabel = [] := rfl
@[simp] theorem resetBlock_prog (s : State) : (resetBlock s).prog = [] := rfl
@[simp] theorem resetBlock_clabel (s : State) : (resetBlock s).clabel = [] := rfl
@[simp] theorem resetBlock_textStart (s : State) : (resetBlock s).textStart = 0 := rfl
@[simp] theorem resetBlock_hist (s : State) : (resetBlock s).hist = 0 := rfl
@[simp] theorem resetBlock_bhts (s : State) : (resetBlock s).bhts = s.bhts.map bhtReset := rfl
@[simp] theorem resetBlock_lastValid (s : State) : (resetBlock s).lastValid = false := rfl
@[simp] theorem resetBlock_lastPred (s : State) :
    (resetBlock s).lastPred = Config.stalePred s.latchDraws := rfl
@[simp] theorem resetBlock_lastOutcome (s : State) :
    (resetBlock s).lastOutcome = Config.staleOutcome s.latchDraws := rfl
@[simp] theorem resetBlock_lastAddr (s : State) :
    (resetBlock s).lastAddr = wrap s.cfg.xlen (Config.staleAddr s.latchDraws) := rfl
@[simp] theorem resetBlock_out (s : State) : (resetBlock s).out = s.out := rfl
@[simp] theorem resetBlock_draws (s : State) : (resetBlock s).draws = s.draws := rfl
@[simp] theorem resetBlock_latchDraws (s : State) :
    (resetBlock s).latchDraws = s.latchDraws + 1 := rfl
@[simp] theorem resetBlock_inputSilent (s : State) :
    (resetBlock s).inputSilent = s.inputSilent := rfl

end Sys2Proof.Machine
end

