-- ==== Sys2Proof/Laws/Ops.lean ====
section
/-! SUPPORT. For each shared operation, once, everything it can do: if it answers, then how. -/

namespace Sys2Proof.Machine

open Sys2Proof

/-! ### Sequencing -/

/-- A sequence answers exactly when both of its parts do. -/
theorem bind_ok {ε α β : Type} {x : Except ε α} {f : α → Except ε β} {b : β} :
    x.bind f = .ok b ↔ ∃ a, x = .ok a ∧ f a = .ok b := by
  cases x <;> simp [Except.bind]

/-- A sequence raises what its first part raises, or what its second does. -/
theorem bind_error {ε α β : Type} {x : Except ε α} {f : α → Except ε β} {e : ε} :
    x.bind f = .error e ↔ x = .error e ∨ ∃ a, x = .ok a ∧ f a = .error e := by
  cases x <;> simp [Except.bind]

@[simp] theorem ok_bind {ε α β : Type} (a : α) (f : α → Except ε β) :
    (Except.ok a).bind f = f a := rfl

@[simp] theorem error_bind {ε α β : Type} (e : ε) (f : α → Except ε β) :
    (Except.error e : Except ε α).bind f = .error e := rfl

@[simp] theorem complete_ok (s : State) : complete (.ok s) = .next s.advance := rfl

@[simp] theorem complete_error (e : Fault) : complete (.error e) = .fault e := rfl

/-- A completed line is its unit's execution, then the pc's advance (46_cpu.md R278). -/
theorem complete_next {r : Except Fault State} {t : State} :
    complete r = .next t ↔ ∃ u, r = .ok u ∧ t = u.advance := by
  cases r <;> simp [complete, raise, eq_comm]

/-- A line fails exactly as its unit's execution does. -/
theorem complete_fault {r : Except Fault State} {e : Fault} :
    complete r = .fault e ↔ r = .error e := by
  cases r <;> simp [complete, raise]

/-- A line is never refused. -/
theorem complete_not_refused (r : Except Fault State) (q : Refusal) : complete r ≠ .refused q := by
  cases r <;> simp [complete, raise]

/-! ### Numbers -/

theorem pow2_pos (n : Nat) : 0 < pow2 n := by unfold pow2; positivity

/-- The width of the range is twice its half. -/
theorem pow2_succ (n : Nat) (h : 1 ≤ n) : pow2 n = 2 * pow2 (n - 1) := by
  obtain ⟨k, rfl⟩ := Nat.exists_eq_add_of_le' h
  simp [pow2, pow_succ, mul_comm]

/-- Every wrapped value lies in the signed range (10_state.md R23). -/
theorem wrap_mem_range {n : Nat} (h : 1 ≤ n) (v : Int) :
    minVal n ≤ wrap n v ∧ wrap n v ≤ maxVal n := by
  have h1 := pow2_succ n h
  have h2 := Int.emod_nonneg (v - minVal n) (pow2_pos n).ne'
  have h3 := Int.emod_lt_of_pos (v - minVal n) (pow2_pos n)
  unfold wrap minVal maxVal at *
  omega

/-- A value of the range is its own wrap. -/
theorem wrap_of_range {n : Nat} {v : Int} (h : 1 ≤ n) (hl : minVal n ≤ v) (hu : v ≤ maxVal n) :
    wrap n v = v := by
  have h1 := pow2_succ n h
  have h2 : (v - minVal n) % pow2 n = v - minVal n := by
    apply Int.emod_eq_of_lt <;> unfold minVal maxVal at * <;> omega
  unfold wrap
  omega

/-! ### Registers -/

/-- What a register read answers: 0 for the zero register, a general register's value by its place. -/
theorem readReg_ok {s : State} {o : Operand} {a : Int} (h : readReg s o = .ok a) :
    ∃ name, o = .sym name ∧ ((name = s.cfg.zeroName ∧ a = 0) ∨
      (name ≠ s.cfg.zeroName ∧ ∃ k, regIndex s.cfg name = some k ∧ a = s.regs.getD k 0)) := by
  cases o with
  | int v => simp [readReg] at h
  | sym name =>
    refine ⟨name, rfl, ?_⟩
    unfold readReg at h
    dsimp only at h
    split at h
    · cases h; exact .inl ⟨‹_›, rfl⟩
    · split at h
      · cases h; exact .inr ⟨‹_›, _, ‹_›, rfl⟩
      · cases h

/-- A register read raises UnknownRegister with its operand, or nothing. -/
theorem readReg_error {s : State} {o : Operand} {e : Fault} (h : readReg s o = .error e) :
    e = .unknownRegister o := by
  cases o with
  | int v => simpa [readReg, eq_comm] using h
  | sym name =>
    unfold readReg at h
    dsimp only at h
    split at h
    · cases h
    · split at h <;> cases h
      rfl

/-- What a register write can do: nothing, for the zero register, or set one register. -/
theorem writeReg_ok {s t : State} {o : Operand} {v : Int} (h : writeReg s o v = .ok t) :
    ∃ name, o = .sym name ∧ ((name = s.cfg.zeroName ∧ t = s) ∨
      (name ≠ s.cfg.zeroName ∧ ∃ k, regIndex s.cfg name = some k ∧ t = s.setReg k v)) := by
  cases o with
  | int v => simp [writeReg] at h
  | sym name =>
    refine ⟨name, rfl, ?_⟩
    unfold writeReg at h
    dsimp only at h
    split at h
    · cases h; exact .inl ⟨‹_›, rfl⟩
    · split at h
      · cases h; exact .inr ⟨‹_›, _, ‹_›, rfl⟩
      · cases h

/-- A register write raises UnknownRegister with its operand, or nothing. -/
theorem writeReg_error {s : State} {o : Operand} {v : Int} {e : Fault}
    (h : writeReg s o v = .error e) : e = .unknownRegister o := by
  cases o with
  | int v => simpa [writeReg, eq_comm] using h
  | sym name =>
    unfold writeReg at h
    dsimp only at h
    split at h
    · cases h
    · split at h <;> cases h
      rfl

/-! ### Data segment -/

/-- What a read of a word answers (20_memory.md R63). -/
theorem memRead_ok {s : State} {addr : Int} {w : Int} (h : memRead s addr = .ok w) :
    0 ≤ addr ∧ addr < s.dmem.length ∧ w = s.dmem.getD addr.toNat 0 := by
  unfold memRead at h
  split at h
  · cases h
    simp_all [inData]
  · cases h

/-- A read of a word raises AddressOutOfRange with its index, or nothing. -/
theorem memRead_error {s : State} {addr : Int} {e : Fault} (h : memRead s addr = .error e) :
    e = .addressOutOfRange addr ∧ inData s.dmem addr = false := by
  unfold memRead at h
  split at h
  · cases h
  · cases h; simp_all

/-- What a write of a word does (20_memory.md R63). -/
theorem memWrite_ok {s t : State} {addr v : Int} (h : memWrite s addr v = .ok t) :
    0 ≤ addr ∧ addr < s.dmem.length ∧ t = s.setWord addr.toNat v := by
  unfold memWrite at h
  split at h
  · cases h
    simp_all [inData]
  · cases h

/-- A write of a word raises AddressOutOfRange with its index, or nothing. -/
theorem memWrite_error {s : State} {addr v : Int} {e : Fault} (h : memWrite s addr v = .error e) :
    e = .addressOutOfRange addr ∧ inData s.dmem addr = false := by
  unfold memWrite at h
  split at h
  · cases h
  · cases h; simp_all

/-- The form of a data segment, word by word. -/
theorem memory_wf_iff {c : Config} {m : List Int} :
    Memory.wf c m = true ↔ ∀ v ∈ m, minVal c.xlen ≤ v ∧ v ≤ maxVal c.xlen := by
  simp [Memory.wf]

/-- A store keeps the data segment's form. -/
theorem memWrite_keeps_wf {s t : State} {addr v : Int} (hx : 1 ≤ s.cfg.xlen)
    (hm : Memory.wf s.cfg s.dmem = true) (h : memWrite s addr v = .ok t) :
    Memory.wf t.cfg t.dmem = true := by
  obtain ⟨-, -, rfl⟩ := memWrite_ok h
  rw [memory_wf_iff] at *
  intro w hw
  rcases List.mem_or_eq_of_mem_set hw with hw | rfl
  · exact hm w hw
  · exact wrap_mem_range hx v

/-- A data declaration keeps the data segment's form. -/
theorem appendData_keeps_wf {s : State} {l : Text} {vs : List Int} (hx : 1 ≤ s.cfg.xlen)
    (hm : Memory.wf s.cfg s.dmem = true) :
    Memory.wf (appendData s l vs).cfg (appendData s l vs).dmem = true := by
  rw [memory_wf_iff] at *
  intro w hw
  rcases List.mem_append.mp hw with hw | hw
  · exact hm w hw
  · obtain ⟨v, -, rfl⟩ := List.mem_map.mp hw
    exact wrap_mem_range hx v

/-- The data segment after reset has its form. -/
theorem reset_memory_wf : Memory.wf State.reset.cfg State.reset.dmem = true := rfl

/-- The data segment a reset leaves has its form. -/
theorem resetBlock_memory_wf (s : State) :
    Memory.wf (resetBlock s).cfg (resetBlock s).dmem = true := rfl

/-! ### Labels -/

/-- What a label lookup answers. -/
theorem lookupLabel_ok {m : LabelMap} {o : Operand} {k : Nat} (h : lookupLabel m o = .ok k) :
    ∃ name, o = .sym name ∧ m.lookup name = some k := by
  cases o with
  | int v => simp [lookupLabel] at h
  | sym name =>
    unfold lookupLabel at h
    dsimp only at h
    split at h <;> cases h
    exact ⟨name, rfl, ‹_›⟩

/-- A label lookup raises UnknownLabel with its operand, or nothing. -/
theorem lookupLabel_error {m : LabelMap} {o : Operand} {e : Fault} (h : lookupLabel m o = .error e) :
    e = .unknownLabel o := by
  cases o with
  | int v => simpa [lookupLabel, eq_comm] using h
  | sym name =>
    unfold lookupLabel at h
    dsimp only at h
    split at h <;> cases h
    rfl

/-! ### Operand formats -/

theorem formatF0_ok {ops : List Operand} {u : Unit} : formatF0 ops = .ok u ↔ ops = [] := by
  unfold formatF0; split <;> simp_all

theorem format1_ok {ops : List Operand} {a : Operand} : format1 ops = .ok a ↔ ops = [a] := by
  unfold format1; split <;> simp_all

theorem format2_ok {ops : List Operand} {p : Operand × Operand} :
    format2 ops = .ok p ↔ ops = [p.1, p.2] := by
  obtain ⟨x, y⟩ := p
  unfold format2; split <;> simp_all

theorem format3_ok {ops : List Operand} {p : Operand × Operand × Operand} :
    format3 ops = .ok p ↔ ops = [p.1, p.2.1, p.2.2] := by
  obtain ⟨x, y, z⟩ := p
  unfold format3; split <;> simp_all

theorem formatFRI_ok {ops : List Operand} {p : Operand × Int} :
    formatFRI ops = .ok p ↔ ops = [p.1, .int p.2] := by
  obtain ⟨x, y⟩ := p
  unfold formatFRI
  split
  · simp
  · simp only [reduceCtorEq, false_iff]
    rintro rfl
    simp_all

theorem formatFI_ok {ops : List Operand} {p : Operand × Operand × Int} :
    formatFI ops = .ok p ↔ ops = [p.1, p.2.1, .int p.2.2] := by
  obtain ⟨x, y, z⟩ := p
  unfold formatFI
  split
  · simp
  · simp only [reduceCtorEq, false_iff]
    rintro rfl
    simp_all

theorem formatFM_ok {ops : List Operand} {p : Operand × Int × Operand} :
    formatFM ops = .ok p ↔ ops = [p.1, .int p.2.1, p.2.2] := by
  obtain ⟨x, y, z⟩ := p
  unfold formatFM
  split
  · simp
  · simp only [reduceCtorEq, false_iff]
    rintro rfl
    simp_all

/-! ### The units' shared operations -/

/-- What a three-register operation can do (41_alu.md R150). -/
theorem alu3_ok {f : Int → Int → Except Fault Int} {ops : List Operand} {s t : State}
    (h : alu3 f ops s = .ok t) :
    ∃ rd rs rt a b v, ops = [rd, rs, rt] ∧ readReg s rs = .ok a ∧ readReg s rt = .ok b ∧
      f a b = .ok v ∧ writeReg s rd v = .ok t := by
  simp only [alu3, bind_ok, format3_ok] at h
  obtain ⟨⟨rd, rs, rt⟩, rfl, a, ha, b, hb, v, hv, hw⟩ := h
  exact ⟨rd, rs, rt, a, b, v, rfl, ha, hb, hv, hw⟩

/-- What a register-and-immediate operation can do (41_alu.md R150). -/
theorem aluImm_ok {f : Int → Int → Int} {ops : List Operand} {s t : State}
    (h : aluImm f ops s = .ok t) :
    ∃ rd rs k a, ops = [rd, rs, .int k] ∧ readReg s rs = .ok a ∧
      writeReg s rd (f a (imm s.cfg k)) = .ok t := by
  simp only [aluImm, bind_ok, formatFI_ok] at h
  obtain ⟨⟨rd, rs, k⟩, rfl, a, ha, hw⟩ := h
  exact ⟨rd, rs, k, a, rfl, ha, hw⟩

/-- What a two-register operation can do. -/
theorem unary_ok {f : Int → Int} {ops : List Operand} {s t : State} (h : unary f ops s = .ok t) :
    ∃ rd rs a, ops = [rd, rs] ∧ readReg s rs = .ok a ∧ writeReg s rd (f a) = .ok t := by
  simp only [unary, bind_ok, format2_ok] at h
  obtain ⟨⟨rd, rs⟩, rfl, a, ha, hw⟩ := h
  exact ⟨rd, rs, a, rfl, ha, hw⟩

/-- What a comparison of the Jump Unit can answer (43_jump_unit.md R210). -/
theorem compareRegs_ok {f : Int → Int → Bool} {ops : List Operand} {s : State}
    {r : Bool × Operand} (h : compareRegs f ops s = .ok r) :
    ∃ rs rt target a b, ops = [rs, rt, target] ∧ readReg s rs = .ok a ∧ readReg s rt = .ok b ∧
      r = (f a b, target) := by
  simp only [compareRegs, bind_ok, format3_ok] at h
  obtain ⟨⟨rs, rt, target⟩, rfl, a, ha, b, hb, hr⟩ := h
  exact ⟨rs, rt, target, a, b, rfl, ha, hb, (by simpa [eq_comm] using hr)⟩

/-- What a branch step can do (46_cpu.md R279). -/
theorem branchStep_next {x : Except Fault (Bool × Operand)} {s t : State}
    (h : branchStep x s = .next t) :
    ∃ taken target newPc, x = .ok (taken, target) ∧ branchPc s taken target = .ok newPc ∧
      t = branchTo s newPc taken := by
  unfold branchStep at h
  split at h
  · rename_i u hu
    simp only [bind_ok] at hu
    obtain ⟨⟨taken, target⟩, hx, newPc, hp, hb⟩ := hu
    cases h
    exact ⟨taken, target, newPc, hx, hp, by simpa [eq_comm] using hb⟩
  · cases h

/-- How a branch step can fail: its execution raises, or a taken branch's target is not declared. -/
theorem branchStep_fault {x : Except Fault (Bool × Operand)} {s : State} {e : Fault}
    (h : branchStep x s = .fault e) :
    x = .error e ∨ ∃ target, x = .ok (true, target) ∧ e = .unknownLabel target := by
  unfold branchStep at h
  split at h
  · cases h
  · rename_i e' he
    cases h
    rcases bind_error.mp he with h | ⟨⟨taken, target⟩, hx, h⟩
    · exact .inl h
    · rcases bind_error.mp h with h | ⟨_, _, h⟩
      · unfold branchPc at h
        split at h
        · rename_i ht
          cases taken with
          | false => cases ht
          | true =>
            rcases bind_error.mp h with h | ⟨_, _, h⟩
            · exact .inr ⟨target, hx, lookupLabel_error h⟩
            · cases h
        · cases h
      · cases h

/-- Where a branch can go (43_jump_unit.md R218). -/
theorem branchPc_ok {s : State} {taken : Bool} {target : Operand} {newPc : Int}
    (h : branchPc s taken target = .ok newPc) :
    (taken = true ∧ ∃ name line, target = .sym name ∧ s.clabel.lookup name = some line ∧
      newPc = (line : Int)) ∨ (taken = false ∧ newPc = s.pc + 1) := by
  unfold branchPc at h
  split at h
  · simp only [bind_ok] at h
    obtain ⟨line, hl, hn⟩ := h
    obtain ⟨name, rfl, hm⟩ := lookupLabel_ok hl
    exact .inl ⟨‹_›, name, line, rfl, hm, by simpa [eq_comm] using hn⟩
  · refine .inr ⟨by simp_all, by simpa [eq_comm] using h⟩

/-- What a print can do (44_syscall_unit.md R231, R232). -/
theorem printArg_ok {event : Int → Event} {ops : List Operand} {s t : State}
    (h : printArg event ops s = .ok t) :
    ∃ v, ops = [] ∧ readReg s (.sym s.cfg.sysArgReg) = .ok v ∧ t = s.emit (event v) := by
  simp only [printArg, bind_ok, formatF0_ok] at h
  obtain ⟨_, rfl, v, hv, ht⟩ := h
  exact ⟨v, rfl, hv, by simpa [eq_comm] using ht⟩

/-- What a read can do (44_syscall_unit.md R233, R234). -/
theorem readInput_ok {answer : Nat → Int} {ops : List Operand} {s t : State}
    (h : readInput answer ops s = .ok t) :
    ∃ u, ops = [] ∧ s.inputSilent = false ∧
      writeReg s (.sym s.cfg.sysResReg) (answer s.draws) = .ok u ∧ t = u.drawn := by
  simp only [readInput, bind_ok, formatF0_ok] at h
  obtain ⟨_, rfl, h⟩ := h
  split at h
  · cases h
  · simp only [acceptInput, bind_ok] at h
    obtain ⟨u, hu, ht⟩ := h
    exact ⟨u, rfl, by simp_all, hu, by simpa [eq_comm] using ht⟩

/-! ### Fetch, step, load -/

/-- When a fetch finds a line (46_cpu.md R274). -/
theorem fetch_line {s : State} {i : Instr} :
    fetch s = .line i ↔ 0 ≤ s.pc ∧ s.prog[s.pc.toNat]? = some i := by
  unfold fetch
  split
  · have : ¬ (0 ≤ s.pc) := by omega
    simp [this]
  · have : 0 ≤ s.pc := by omega
    split <;> simp_all

/-- What a step can do: nothing, at the terminal condition, or the line at the pc. -/
theorem step_next {s t : State} (h : step s = .next t) :
    (fetch s = .halted ∧ t = s) ∨ ∃ i, fetch s = .line i ∧ exec i s = .next t := by
  unfold step at h
  split at h
  · cases h; exact .inl ⟨‹_›, rfl⟩
  · exact .inr ⟨_, ‹_›, h⟩
  · cases h

/-- What a load can do (46_cpu.md R270, R271): every check has passed, and the program is installed in
the block after its reset. -/
theorem load_next {program : List Instr} {s t : State} (h : load program s = .next t) :
    ∃ m, (program.length : Int) ≤ maxVal s.cfg.xlen ∧ program.findIdx? isTextMarker = some m ∧
      m + 1 ≠ program.length ∧ firstRepeated [] (programLabels program) = none ∧
      t = installProgram program (m + 1) (resetBlock s) := by
  unfold load at h
  split at h
  · cases h
  · split at h
    · cases h
    · rename_i m hm
      split at h
      · cases h
      · split at h
        · cases h
        · cases h
          exact ⟨m, by omega, hm, ‹_›, ‹_›, rfl⟩

end Sys2Proof.Machine
end

