-- ==== Sys2Proof/Laws/PerInstr.lean ====
section
/-! SUPPORT. Statements about every instruction as syntax, one lemma per constructor. -/

namespace Sys2Proof.Laws

open Sys2Proof

/-- The op id, label and operands of an operation give the operation back (30_encoding.md R104), and its
selector is the table's for that op id (R105). -/
def OperationBack.Statement (i : Instr) : Prop :=
  ∀ p, i.operation? = some p →
    (operations[p.1]?.map fun make => make p.2.1 p.2.2) = some i ∧ i.selector = 192 + p.1 ∧
      p.1 < formats.length

theorem OperationBack.sectionLine (k : Text) : OperationBack.Statement (.sectionLine k) := by
  intro p h; cases h

theorem OperationBack.spaceLine (l : Text) (n : Nat) : OperationBack.Statement (.spaceLine l n) := by
  intro p h; cases h

theorem OperationBack.wordLine (l : Text) (vs : List Int) : OperationBack.Statement (.wordLine l vs) := by
  intro p h; cases h

theorem OperationBack.labelLine (l : Text) : OperationBack.Statement (.labelLine l) := by
  intro p h; cases h

theorem OperationBack.nop (l : Option Text) (ops : List Operand) : OperationBack.Statement (.nop l ops) := by
  intro p h; cases h; exact ⟨rfl, rfl, of_decide_eq_true rfl⟩

theorem OperationBack.add (l : Option Text) (ops : List Operand) : OperationBack.Statement (.add l ops) := by
  intro p h; cases h; exact ⟨rfl, rfl, of_decide_eq_true rfl⟩

theorem OperationBack.sub (l : Option Text) (ops : List Operand) : OperationBack.Statement (.sub l ops) := by
  intro p h; cases h; exact ⟨rfl, rfl, of_decide_eq_true rfl⟩

theorem OperationBack.mult (l : Option Text) (ops : List Operand) : OperationBack.Statement (.mult l ops) := by
  intro p h; cases h; exact ⟨rfl, rfl, of_decide_eq_true rfl⟩

theorem OperationBack.div (l : Option Text) (ops : List Operand) : OperationBack.Statement (.div l ops) := by
  intro p h; cases h; exact ⟨rfl, rfl, of_decide_eq_true rfl⟩

theorem OperationBack.and (l : Option Text) (ops : List Operand) : OperationBack.Statement (.and l ops) := by
  intro p h; cases h; exact ⟨rfl, rfl, of_decide_eq_true rfl⟩

theorem OperationBack.or (l : Option Text) (ops : List Operand) : OperationBack.Statement (.or l ops) := by
  intro p h; cases h; exact ⟨rfl, rfl, of_decide_eq_true rfl⟩

theorem OperationBack.xor (l : Option Text) (ops : List Operand) : OperationBack.Statement (.xor l ops) := by
  intro p h; cases h; exact ⟨rfl, rfl, of_decide_eq_true rfl⟩

theorem OperationBack.not (l : Option Text) (ops : List Operand) : OperationBack.Statement (.not l ops) := by
  intro p h; cases h; exact ⟨rfl, rfl, of_decide_eq_true rfl⟩

theorem OperationBack.slt (l : Option Text) (ops : List Operand) : OperationBack.Statement (.slt l ops) := by
  intro p h; cases h; exact ⟨rfl, rfl, of_decide_eq_true rfl⟩

theorem OperationBack.sllv (l : Option Text) (ops : List Operand) : OperationBack.Statement (.sllv l ops) := by
  intro p h; cases h; exact ⟨rfl, rfl, of_decide_eq_true rfl⟩

theorem OperationBack.srlv (l : Option Text) (ops : List Operand) : OperationBack.Statement (.srlv l ops) := by
  intro p h; cases h; exact ⟨rfl, rfl, of_decide_eq_true rfl⟩

theorem OperationBack.srav (l : Option Text) (ops : List Operand) : OperationBack.Statement (.srav l ops) := by
  intro p h; cases h; exact ⟨rfl, rfl, of_decide_eq_true rfl⟩

theorem OperationBack.addi (l : Option Text) (ops : List Operand) : OperationBack.Statement (.addi l ops) := by
  intro p h; cases h; exact ⟨rfl, rfl, of_decide_eq_true rfl⟩

theorem OperationBack.andi (l : Option Text) (ops : List Operand) : OperationBack.Statement (.andi l ops) := by
  intro p h; cases h; exact ⟨rfl, rfl, of_decide_eq_true rfl⟩

theorem OperationBack.ori (l : Option Text) (ops : List Operand) : OperationBack.Statement (.ori l ops) := by
  intro p h; cases h; exact ⟨rfl, rfl, of_decide_eq_true rfl⟩

theorem OperationBack.xori (l : Option Text) (ops : List Operand) : OperationBack.Statement (.xori l ops) := by
  intro p h; cases h; exact ⟨rfl, rfl, of_decide_eq_true rfl⟩

theorem OperationBack.slti (l : Option Text) (ops : List Operand) : OperationBack.Statement (.slti l ops) := by
  intro p h; cases h; exact ⟨rfl, rfl, of_decide_eq_true rfl⟩

theorem OperationBack.sll (l : Option Text) (ops : List Operand) : OperationBack.Statement (.sll l ops) := by
  intro p h; cases h; exact ⟨rfl, rfl, of_decide_eq_true rfl⟩

theorem OperationBack.srl (l : Option Text) (ops : List Operand) : OperationBack.Statement (.srl l ops) := by
  intro p h; cases h; exact ⟨rfl, rfl, of_decide_eq_true rfl⟩

theorem OperationBack.sra (l : Option Text) (ops : List Operand) : OperationBack.Statement (.sra l ops) := by
  intro p h; cases h; exact ⟨rfl, rfl, of_decide_eq_true rfl⟩

theorem OperationBack.lw (l : Option Text) (ops : List Operand) : OperationBack.Statement (.lw l ops) := by
  intro p h; cases h; exact ⟨rfl, rfl, of_decide_eq_true rfl⟩

theorem OperationBack.sw (l : Option Text) (ops : List Operand) : OperationBack.Statement (.sw l ops) := by
  intro p h; cases h; exact ⟨rfl, rfl, of_decide_eq_true rfl⟩

theorem OperationBack.li (l : Option Text) (ops : List Operand) : OperationBack.Statement (.li l ops) := by
  intro p h; cases h; exact ⟨rfl, rfl, of_decide_eq_true rfl⟩

theorem OperationBack.la (l : Option Text) (ops : List Operand) : OperationBack.Statement (.la l ops) := by
  intro p h; cases h; exact ⟨rfl, rfl, of_decide_eq_true rfl⟩

theorem OperationBack.lui (l : Option Text) (ops : List Operand) : OperationBack.Statement (.lui l ops) := by
  intro p h; cases h; exact ⟨rfl, rfl, of_decide_eq_true rfl⟩

theorem OperationBack.mfhi (l : Option Text) (ops : List Operand) : OperationBack.Statement (.mfhi l ops) := by
  intro p h; cases h; exact ⟨rfl, rfl, of_decide_eq_true rfl⟩

theorem OperationBack.mflo (l : Option Text) (ops : List Operand) : OperationBack.Statement (.mflo l ops) := by
  intro p h; cases h; exact ⟨rfl, rfl, of_decide_eq_true rfl⟩

theorem OperationBack.mthi (l : Option Text) (ops : List Operand) : OperationBack.Statement (.mthi l ops) := by
  intro p h; cases h; exact ⟨rfl, rfl, of_decide_eq_true rfl⟩

theorem OperationBack.mtlo (l : Option Text) (ops : List Operand) : OperationBack.Statement (.mtlo l ops) := by
  intro p h; cases h; exact ⟨rfl, rfl, of_decide_eq_true rfl⟩

theorem OperationBack.move (l : Option Text) (ops : List Operand) : OperationBack.Statement (.move l ops) := by
  intro p h; cases h; exact ⟨rfl, rfl, of_decide_eq_true rfl⟩

theorem OperationBack.beq (l : Option Text) (ops : List Operand) : OperationBack.Statement (.beq l ops) := by
  intro p h; cases h; exact ⟨rfl, rfl, of_decide_eq_true rfl⟩

theorem OperationBack.bne (l : Option Text) (ops : List Operand) : OperationBack.Statement (.bne l ops) := by
  intro p h; cases h; exact ⟨rfl, rfl, of_decide_eq_true rfl⟩

theorem OperationBack.bgt (l : Option Text) (ops : List Operand) : OperationBack.Statement (.bgt l ops) := by
  intro p h; cases h; exact ⟨rfl, rfl, of_decide_eq_true rfl⟩

theorem OperationBack.bge (l : Option Text) (ops : List Operand) : OperationBack.Statement (.bge l ops) := by
  intro p h; cases h; exact ⟨rfl, rfl, of_decide_eq_true rfl⟩

theorem OperationBack.blt (l : Option Text) (ops : List Operand) : OperationBack.Statement (.blt l ops) := by
  intro p h; cases h; exact ⟨rfl, rfl, of_decide_eq_true rfl⟩

theorem OperationBack.ble (l : Option Text) (ops : List Operand) : OperationBack.Statement (.ble l ops) := by
  intro p h; cases h; exact ⟨rfl, rfl, of_decide_eq_true rfl⟩

theorem OperationBack.j (l : Option Text) (ops : List Operand) : OperationBack.Statement (.j l ops) := by
  intro p h; cases h; exact ⟨rfl, rfl, of_decide_eq_true rfl⟩

theorem OperationBack.printInt (l : Option Text) (ops : List Operand) : OperationBack.Statement (.printInt l ops) := by
  intro p h; cases h; exact ⟨rfl, rfl, of_decide_eq_true rfl⟩

theorem OperationBack.printChar (l : Option Text) (ops : List Operand) : OperationBack.Statement (.printChar l ops) := by
  intro p h; cases h; exact ⟨rfl, rfl, of_decide_eq_true rfl⟩

theorem OperationBack.readInt (l : Option Text) (ops : List Operand) : OperationBack.Statement (.readInt l ops) := by
  intro p h; cases h; exact ⟨rfl, rfl, of_decide_eq_true rfl⟩

theorem OperationBack.readChar (l : Option Text) (ops : List Operand) : OperationBack.Statement (.readChar l ops) := by
  intro p h; cases h; exact ⟨rfl, rfl, of_decide_eq_true rfl⟩

theorem OperationBack.exit (l : Option Text) (ops : List Operand) : OperationBack.Statement (.exit l ops) := by
  intro p h; cases h; exact ⟨rfl, rfl, of_decide_eq_true rfl⟩

theorem OperationBack.unknownOp (l : Option Text) (o : Text) (ops : List Operand) : OperationBack.Statement (.unknownOp l o ops) := by
  intro p h; cases h

end Sys2Proof.Laws
end

