-- ==== Sys2Proof/Tests/Slice0.lean ====
section
/-! SUPPORT. Tests. Unless a comment says otherwise an expected result is a vector (V, X, P) of
spec/95_test_vectors.md or an example of the rule named. -/

namespace Sys2Proof.Tests

open Sys2Proof Sys2Proof.Machine

/-! ### Helpers -/

/-- The register operand of a name. -/
def r (name : String) : Operand := .sym (text name)

/-- The reset state with some registers written. -/
def withRegs (xs : List (String × Int)) : State :=
  xs.foldl (fun s p => (writeReg s (r p.1) p.2).toOption.getD s) State.reset

/-- The decoder of the reference instance. -/
def decode (line : String) : Option Instr := (parse Config.referenceMnemonics (text line)).toOption

/-- The state after an outcome, where it is a next state. -/
def next? : Host.Outcome State Fault Refusal → Option State
  | .next s => some s
  | _ => none

/-- The fault of an outcome. -/
def fault? : Host.Outcome State Fault Refusal → Option Fault
  | .fault e => some e
  | _ => none

/-- One line, decoded and executed. -/
def run1 (line : String) (s : State) : Option State := (decode line).bind fun i => next? (exec i s)

/-- The fault one line raises. -/
def faultOf (line : String) (s : State) : Option Fault := (decode line).bind fun i => fault? (exec i s)

/-- A register after one line. -/
def regAfter (line : String) (s : State) (name : String) : Option Int :=
  (run1 line s).bind fun t => (readReg t (r name)).toOption

/-- A part of the state after one line. -/
def after {α : Type} (line : String) (s : State) (f : State → α) : Option α := (run1 line s).map f

/-! ### WellFormed refuses each ill-formed term -/

theorem test_wf_section_without_dot : Instr.wf Config.referenceMnemonics (.sectionLine (text "data")) = false := by decide
theorem test_wf_section_bad_name : Instr.wf Config.referenceMnemonics (.sectionLine (text ".1x")) = false := by decide
theorem test_wf_label_upper_case : Instr.wf Config.referenceMnemonics (.labelLine (text "LOOP")) = false := by decide
theorem test_wf_space_bad_label : Instr.wf Config.referenceMnemonics (.spaceLine (text "1a") 2) = false := by decide
theorem test_wf_word_no_values : Instr.wf Config.referenceMnemonics (.wordLine (text "a") []) = false := by decide
theorem test_wf_four_operands : Instr.wf Config.referenceMnemonics (.add none [.int 1, .int 2, .int 3, .int 4]) = false := by decide
theorem test_wf_symbol_is_integer : Instr.wf Config.referenceMnemonics (.j none [.sym (text "12")]) = false := by decide
theorem test_wf_symbol_upper_case : Instr.wf Config.referenceMnemonics (.j none [.sym (text "END")]) = false := by decide
theorem test_wf_symbol_bad_char : Instr.wf Config.referenceMnemonics (.j none [.sym (text "a b")]) = false := by decide
theorem test_wf_operation_bad_label : Instr.wf Config.referenceMnemonics (.nop (some (text "a-b")) []) = false := by decide
theorem test_wf_unknown_is_known : Instr.wf Config.referenceMnemonics (.unknownOp none (text "add") []) = false := by decide
theorem test_wf_unknown_bad_opcode : Instr.wf Config.referenceMnemonics (.unknownOp none (text "_x") []) = false := by decide
theorem test_wf_accepts_add : Instr.wf Config.referenceMnemonics (.add (some (text "l1")) [r "$t0", r "$t1", r "$t2"]) = true := by decide

theorem test_reference_valid : Config.reference.valid = true := by decide +kernel
theorem test_xlen_odd_refused : Config.valid { Config.reference with xlen := 33 } = false := by decide
theorem test_xlen_zero_refused : Config.valid { Config.reference with xlen := 0 } = false := by decide
theorem test_word_size_zero_refused : Config.valid { Config.reference with wordSize := 0 } = false := by decide
theorem test_counter_width_zero_refused : Config.valid { Config.reference with ctrBits := 0 } = false := by decide
theorem test_arg_reg_unknown_refused : Config.valid { Config.reference with sysArgReg := text "$zero" } = false := by decide +kernel
theorem test_res_reg_unknown_refused : Config.valid { Config.reference with sysResReg := text "$x" } = false := by decide +kernel
theorem test_register_named_pc_refused : Config.namesWf { Config.reference with gprNames := [text "pc"] } = false := by decide
theorem test_zero_name_twice_refused : Config.namesWf { Config.reference with gprNames := [text "$zero"] } = false := by decide
theorem test_register_name_upper_refused : Config.namesWf { Config.reference with gprNames := [text "$T0"] } = false := by decide
theorem test_mnemonics_missing_refused : mnemonicsWf [text "nop"] = false := by decide
theorem test_mnemonics_twice_refused : mnemonicsWf (List.replicate 43 (text "nop")) = false := by decide
theorem test_mnemonics_upper_refused : mnemonicsWf (text "NOP" :: Config.referenceMnemonics.drop 1) = false := by decide +kernel

/-! ### Decode: lines written out from the patterns of R95 to R100 (V1 to V35) -/

theorem test_decode_section : decode "  .DATA  " = some (.sectionLine (text ".data")) := by decide
theorem test_decode_bare_word_keyword : decode ".word" = some (.sectionLine (text ".word")) := by decide
theorem test_decode_space : decode "buf: .space 3" = some (.spaceLine (text "buf") 3) := by decide
theorem test_decode_space_negative : decode "buf: .space -1" = none := by decide
theorem test_decode_word : decode "A: .WORD 1, -2,+3" = some (.wordLine (text "a") [1, -2, 3]) := by decide
theorem test_decode_word_empty : decode "a: .word" = none := by decide
theorem test_decode_word_hex : decode "a: .word 0x10" = none := by decide
theorem test_decode_word_unlabelled : decode ".word 1 2" = none := by decide
theorem test_decode_label : decode "LOOP:" = some (.labelLine (text "loop")) := by decide
theorem test_decode_label_spaced : decode "loop :" = none := by decide
theorem test_decode_label_digit : decode "1abc:" = none := by decide
theorem test_decode_base_offset : decode "lw $t1, 4($t0)" = some (.lw none [r "$t1", .int 4, r "$t0"]) := by decide
theorem test_decode_offset_omitted : decode "sw $t1, ($sp)" = some (.sw none [r "$t1", .int 0, r "$sp"]) := by decide
theorem test_decode_base_offset_loose : decode "lw $t1 -8( $T0 )" = some (.lw none [r "$t1", .int (-8), r "$t0"]) := by decide
theorem test_decode_three_operand_lw : decode "lw $t1, 4, $t0" = some (.lw none [r "$t1", .int 4, r "$t0"]) := by decide
theorem test_decode_labelled_base_offset : decode "x: lw $t1, 4($t0)" = none := by decide
theorem test_decode_add_commas : decode "add $t0,$t1,$t2" = some (.add none [r "$t0", r "$t1", r "$t2"]) := by decide
theorem test_decode_add_spaces : decode "ADD $T0 $T1 $T2" = some (.add none [r "$t0", r "$t1", r "$t2"]) := by decide
theorem test_decode_labelled_addi :
    decode "L1: addi $t0, $t0, -1" = some (.addi (some (text "l1")) [r "$t0", r "$t0", .int (-1)]) := by decide
theorem test_decode_nop : decode "NOP" = some (.nop none []) := by decide
theorem test_decode_j : decode "j END" = some (.j none [r "end"]) := by decide
theorem test_decode_unknown : decode "frobnicate $t0" = some (.unknownOp none (text "frobnicate") [r "$t0"]) := by decide
theorem test_decode_four_operands : decode "add $t0, $t1, $t2, $t3" = none := by decide
theorem test_decode_hex_is_a_name : decode "li $t0, 0x10" = some (.li none [r "$t0", r "0x10"]) := by decide
theorem test_decode_no_comments : decode "li $t0, 3 # three" = none := by decide
theorem test_decode_empty : decode "" = none := by decide
theorem test_decode_unbounded_literal : decode "li $t0, 99999999999" = some (.li none [r "$t0", .int 99999999999]) := by decide
theorem test_decode_underscore_opcode : decode "_x 1" = none := by decide
theorem test_decode_offset_name : decode "lw $t1, x($t0)" = none := by decide

/-- Every one of the 43 opcode strings of R104, at its place in the table, decodes to the operation with
its op id and no other. -/
theorem test_decode_every_mnemonic :
    (Config.referenceMnemonics.map fun m =>
        (parse Config.referenceMnemonics m).toOption.bind fun i => i.operation?) =
      (List.range 43).map fun id => some (id, none, []) := by decide +kernel

/-- The constructors' op ids are the table's (R104). -/
theorem test_operations_in_order :
    (operations.map fun make => (make none []).selector) = (List.range 43).map fun id => 192 + id := by decide

theorem test_decode_op_names :
    ["nop", "add", "sub", "mult", "div", "and", "or", "xor", "not", "slt"].map (fun m => (decode m)) =
      [.nop, .add, .sub, .mult, .div, .and, .or, .xor, .not, .slt].map (fun (f : Option Text → List Operand → Instr) => some (f none [])) := by decide

/-- The rows of the opcode table: each selector decodes to a line with that selector (R105). -/
theorem test_selectors :
    ([0x000, 0x040, 0x041, 0x080, 0x0FF] ++ (List.range 43).map fun id => 0x0C0 + id).all
      (fun w => ((decodeTableWord 16 w).map Instr.selector) == some w) = true := by decide +kernel
theorem test_selector_unused : decodeTableWord 16 0x0EB = none := by decide
theorem test_selector_add : decodeTableWord 16 0x0C1 = some (.add none [r "$zero", r "$zero", r "$zero"]) := by decide

/-! ### Encode (R111) -/

theorem test_encode_word : encode Config.referenceMnemonics (.wordLine (text "label") [1, 2, 3]) = text "label: .word 1, 2, 3" := by decide
theorem test_encode_space : encode Config.referenceMnemonics (.spaceLine (text "buf") 0) = text "buf: .space 0" := by decide
theorem test_encode_lw : encode Config.referenceMnemonics (.lw none [r "$t1", .int 4, r "$t0"]) = text "lw $t1, 4, $t0" := by decide
theorem test_encode_addi :
    encode Config.referenceMnemonics (.addi (some (text "l1")) [r "$t0", r "$t0", .int (-1)]) = text "l1: addi $t0, $t0, -1" := by decide
theorem test_decimal : decimalInt (-2147483648) = text "-2147483648" := by decide

/-! ### Register File (V40 to V52) -/

theorem test_wrap_max : wrap 32 2147483648 = -2147483648 := by decide
theorem test_wrap_min : wrap 32 (-2147483649) = 2147483647 := by decide
theorem test_zero_register : (writeReg State.reset (r "$zero") 42).toOption.map (fun s => s.regs) = some State.reset.regs := by decide
theorem test_unknown_register : readReg State.reset (r "$t10") = .error (.unknownRegister (r "$t10")) := by rfl
theorem test_hi_is_no_operand : readReg State.reset (r "hi") = .error (.unknownRegister (r "hi")) := by rfl
theorem test_increment_wraps :
    ((increment (withRegs [("$t0", 2147483647)]) (r "$t0")).toOption.bind fun s => (readReg s (r "$t0")).toOption) = some (-2147483648) := by decide
/-- V47, V48, V53; the first call also meets the premise of `SetDataReturnsTheBaseItRecords`. -/
theorem test_set_data :
    let a := setDataByLabel State.reset (text "a") [1, 2, 3]
    let b := setDataByLabel a.1 (text "b") [0, 0]
    (a.2, b.2) = (0, 3) ∧ b.1.dmem = [1, 2, 3, 0, 0] ∧ b.1.dlabel = [(text "a", 0), (text "b", 3)] ∧
      dataView b.1 = [(text "a", [1, 2, 3]), (text "b", [0, 0])] := by decide

/-! ### Arithmetic/Logic Unit (V60 to V134) -/

theorem test_add_wraps : regAfter "add $t0, $t1, $t2" (withRegs [("$t1", 2147483647), ("$t2", 1)]) "$t0" = some (-2147483648) := by decide
theorem test_add_zero_dest : after "add $zero, $t1, $t2" (withRegs [("$t1", 1), ("$t2", 2)]) (fun s => (s.pc, s.regs == (withRegs [("$t1", 1), ("$t2", 2)]).regs)) = some (1, true) := by decide
theorem test_sub_wraps : regAfter "sub $t0, $t1, $t2" (withRegs [("$t1", 0), ("$t2", -2147483648)]) "$t0" = some (-2147483648) := by decide
theorem test_sub_order : regAfter "sub $t0, $t1, $t2" (withRegs [("$t1", 5), ("$t2", 7)]) "$t0" = some (-2) := by decide
theorem test_mult_split : after "mult $t1, $t2" (withRegs [("$t1", -3), ("$t2", 7)]) (fun s => (s.hi, s.lo)) = some (-1, -21) := by decide
theorem test_mult_low_wraps : after "mult $t1, $t2" (withRegs [("$t1", 46341), ("$t2", 46341)]) (fun s => (s.hi, s.lo)) = some (0, -2147479015) := by decide
theorem test_div_floor : regAfter "div $t0, $t1, $t2" (withRegs [("$t1", -7), ("$t2", 2)]) "$t0" = some (-4) := by decide
theorem test_div_zero : faultOf "div $t0, $t1, $t2" (withRegs [("$t1", 5)]) = some .divideByZero := by decide
theorem test_quotient_trunc : quotient .trunc 7 (-2) = -3 ∧ quotient .floor 7 (-2) = -4 := by decide
theorem test_and : regAfter "and $t0, $t1, $t2" (withRegs [("$t1", -1), ("$t2", 255)]) "$t0" = some 255 := by decide
theorem test_or : regAfter "or $t0, $t1, $t2" (withRegs [("$t1", -2147483648), ("$t2", 2147483647)]) "$t0" = some (-1) := by decide
theorem test_xor : regAfter "xor $t0, $t1, $t2" (withRegs [("$t1", 5), ("$t2", -1)]) "$t0" = some (-6) := by decide
theorem test_not : regAfter "not $t0, $t1" (withRegs [("$t1", -2147483648)]) "$t0" = some 2147483647 := by decide
theorem test_slt_signed : regAfter "slt $t0, $t1, $t2" (withRegs [("$t1", -2147483648), ("$t2", 2147483647)]) "$t0" = some 1 := by decide
theorem test_sllv_negative_amount : regAfter "sllv $t0, $t1, $t2" (withRegs [("$t1", 1), ("$t2", -1)]) "$t0" = some (-2147483648) := by decide
theorem test_sllv_width : regAfter "sllv $t0, $t1, $t2" (withRegs [("$t1", 1), ("$t2", 32)]) "$t0" = some 1 := by decide
theorem test_srlv : regAfter "srlv $t0, $t1, $t2" (withRegs [("$t1", -16), ("$t2", 4)]) "$t0" = some 268435455 := by decide
theorem test_srlv_by_zero : regAfter "srlv $t0, $t1, $t2" (withRegs [("$t1", -1), ("$t2", 32)]) "$t0" = some (-1) := by decide
theorem test_srav_floors : regAfter "srav $t0, $t1, $t2" (withRegs [("$t1", -17), ("$t2", 4)]) "$t0" = some (-2) := by decide
theorem test_addi : regAfter "addi $t0, $t1, -1" (withRegs [("$t1", 3)]) "$t0" = some 2 := by decide
theorem test_addi_name : faultOf "addi $t0, $t1, loop" State.reset = some .badOperands := by decide
theorem test_andi_signed : regAfter "andi $t0, $t1, -1" (withRegs [("$t1", -256)]) "$t0" = some (-256) := by decide
theorem test_ori : regAfter "ori $t0, $t1, 1" (withRegs [("$t1", 65536)]) "$t0" = some 65537 := by decide
theorem test_xori : regAfter "xori $t0, $t1, -1" (withRegs [("$t1", 5)]) "$t0" = some (-6) := by decide
theorem test_slti_literal_wraps : regAfter "slti $t0, $t1, 4294967295" State.reset "$t0" = some 0 := by decide
theorem test_sll : regAfter "sll $t0, $t1, 36" (withRegs [("$t1", 3)]) "$t0" = some 48 := by decide
theorem test_srl : regAfter "srl $t0, $t1, 28" (withRegs [("$t1", -7)]) "$t0" = some 15 := by decide
theorem test_sra : regAfter "sra $t0, $t1, 33" (withRegs [("$t1", -8)]) "$t0" = some (-4) := by decide
theorem test_add_two_operands : faultOf "add $t0, $t1" State.reset = some .badOperands := by decide
theorem test_add_integer_source : faultOf "add $bogus, 5, $t2" State.reset = some (.unknownRegister (.int 5)) := by decide

/-! ### Memory Unit (V140 to V173) -/

/-- The start of V140 to V152, with `$t0` and `$t1`. -/
def data3 (t0 t1 : Int) : State :=
  { withRegs [("$t0", t0), ("$t1", t1)] with dmem := [10, 20, 30], dlabel := [(text "a", 0), (text "b", 3)] }

theorem test_lw : regAfter "lw $t1, 1($t0)" (data3 4 0) "$t1" = some 30 := by decide
theorem test_lw_floors_negative_base : regAfter "lw $t1, 1($t0)" (data3 (-1) 0) "$t1" = some 10 := by decide
theorem test_lw_past_end : faultOf "lw $t1, 3($zero)" (data3 0 0) = some (.addressOutOfRange 3) := by decide
theorem test_lw_reads_before_zero_dest : faultOf "lw $zero, 5($zero)" (data3 0 0) = some (.addressOutOfRange 5) := by decide
theorem test_sw : after "sw $t1, 2($t0)" (data3 0 (-5)) (fun s => s.dmem) = some [10, 20, -5] := by decide
theorem test_sw_never_extends : faultOf "sw $t1, 3($t0)" (data3 0 0) = some (.addressOutOfRange 3) := by decide
theorem test_li_wraps : regAfter "li $t0, 2147483648" State.reset "$t0" = some (-2147483648) := by decide
theorem test_li_missing : faultOf "li $t0" State.reset = some .badOperands := by decide
theorem test_la : regAfter "la $t0, b" (data3 0 0) "$t0" = some 3 := by decide
theorem test_la_scaled :
    ((next? (exec (.la none [r "$t0", r "b"]) { data3 0 0 with cfg := { Config.reference with laScale := .wordSize } })).bind
      fun s => (readReg s (r "$t0")).toOption) = some 12 := by decide
theorem test_la_integer : faultOf "la $t0, 5" (data3 0 0) = some (.unknownLabel (.int 5)) := by decide
theorem test_lui : regAfter "lui $t0, 65535" State.reset "$t0" = some (-65536) := by decide
theorem test_lui_top : regAfter "lui $t0, 32768" State.reset "$t0" = some (-2147483648) := by decide
theorem test_mfhi : regAfter "mfhi $t2" { State.reset with hi := 2, lo := 5 } "$t2" = some 2 := by decide
theorem test_mfhi_into_hi : faultOf "mfhi hi" State.reset = some (.unknownRegister (r "hi")) := by decide
theorem test_mflo : regAfter "mflo $t3" { State.reset with hi := 2, lo := 1410065408 } "$t3" = some 1410065408 := by decide
theorem test_mthi : after "mthi $t0" (withRegs [("$t0", 7)]) (fun s => (s.hi, s.lo)) = some (7, 0) := by decide
theorem test_mtlo : after "mtlo $t0" (withRegs [("$t0", -1)]) (fun s => (s.hi, s.lo)) = some (0, -1) := by decide
theorem test_move : regAfter "move $t0, $t1" (withRegs [("$t1", 9)]) "$t0" = some 9 := by decide
theorem test_move_zero : regAfter "move $t0, $zero" (withRegs [("$t0", 9)]) "$t0" = some 0 := by decide

/-! ### Jump Unit (V180 to V197) -/

/-- The start of V180 to V197. -/
def at7 (a b : Int) : State :=
  { withRegs [("$t0", a), ("$t1", b)] with pc := 7, clabel := [(text "l", 2)], prog := List.replicate 12 (.nop none []) }

/-- What V180 to V194 list: the pc, counters 2, 7 and 8 of table 0, its tallies, the history. -/
def branchView (s : State) : Int × List Nat × Nat × Nat × Nat :=
  let b := s.bhts.getD 0 (Bht.zero s.cfg)
  (s.pc, [b.counter 2, b.counter 7, b.counter 8], b.correct, b.incorrect, s.hist)

theorem test_beq_taken : after "beq $t0, $t1, l" (at7 4 4) branchView = some (2, [1, 0, 0], 0, 1, 1) := by decide
theorem test_beq_not_taken : after "beq $t0, $t1, l" (at7 4 5) branchView = some (8, [0, 0, 0], 1, 0, 0) := by decide
theorem test_beq_pre_pc :
    ((next? (exec (.beq none [r "$t0", r "$t1", r "l"]) { at7 4 4 with cfg := { Config.reference with updateKey := .prePc } })).map
      branchView) = some (2, [0, 1, 0], 0, 1, 1) := by decide
theorem test_bne : (after "bne $t0, $zero, l" (at7 2 0) (·.pc), after "bne $t0, $zero, l" (at7 0 0) (·.pc)) = (some 2, some 8) := by decide
theorem test_bgt : (after "bgt $t0, $t1, l" (at7 (-1) 0) (·.pc), after "bgt $t0, $t1, l" (at7 1 0) (·.pc)) = (some 8, some 2) := by decide
theorem test_bge : (after "bge $t0, $t1, l" (at7 3 3) (·.pc), after "bge $t0, $t1, l" (at7 2 3) (·.pc)) = (some 2, some 8) := by decide
theorem test_blt : (after "blt $t0, $t1, l" (at7 (-2147483648) 2147483647) (·.pc), after "blt $t0, $t1, l" (at7 3 3) (·.pc)) = (some 2, some 8) := by decide
theorem test_ble : (after "ble $t0, $t1, l" (at7 5 4) (·.pc), after "ble $t0, $t1, l" (at7 4 4) (·.pc)) = (some 8, some 2) := by decide
theorem test_j : after "j l" (at7 0 0) branchView = some (2, [1, 0, 0], 0, 1, 1) := by decide
theorem test_branch_latches :
    after "beq $t0, $t1, l" (at7 4 4) (fun s => (s.lastValid, s.lastPred, s.lastOutcome, s.lastAddr)) = some (true, false, true, 7) := by decide
theorem test_branch_unknown_label : faultOf "beq $t0, $t0, nowhere" (at7 1 0) = some (.unknownLabel (r "nowhere")) := by decide
theorem test_untaken_unknown_label : after "bne $t0, $t0, nowhere" (at7 1 0) (·.pc) = some 8 := by decide
theorem test_j_integer : faultOf "j 5" (at7 0 0) = some (.unknownLabel (.int 5)) := by decide

/-! ### System-Call Unit (V200 to V207) -/

theorem test_print_int : after "print_int" (withRegs [("$a0", -7)]) (fun s => (s.out, s.pc)) = some ([.printInt (-7)], 1) := by decide
theorem test_print_char :
    after "print_char" { withRegs [("$a0", 65)] with out := [.printInt (-7)] } (·.out) = some [.printInt (-7), .printChar 65] := by decide
theorem test_accept_input_wraps :
    ((acceptInput State.reset 2147483648).toOption.bind fun s => (readReg s (r "$v0")).toOption) = some (-2147483648) := by decide
theorem test_read_int : regAfter "read_int" State.reset "$v0" = some (wrap 32 (Config.answerInt 0)) := rfl
theorem test_read_char : exec (.readChar none []) State.reset = complete (acceptInput State.reset (Config.answerChar 0)) := by rfl
theorem test_read_counts : after "read_int" State.reset (·.draws) = some 1 := by decide
theorem test_read_silent : faultOf "read_char" { State.reset with inputSilent := true } = some .inputNeverAnswers := by decide
theorem test_exit : faultOf "exit" State.reset = some (.notImplemented (text "exit")) := by decide
theorem test_exit_operand : faultOf "exit 1" State.reset = some .badOperands := by decide
theorem test_print_int_operand : faultOf "print_int $a0" State.reset = some .badOperands := by decide

/-! ### Non-operation lines and dispatch (V210 to V218) -/

theorem test_section : after ".data" State.reset (·.pc) = some 1 := by decide
theorem test_word : after "a: .word 1 2" State.reset (fun s => (s.pc, s.dmem)) = some (1, []) := by decide
theorem test_space : after "buf: .space 2" State.reset (fun s => (s.pc, s.dmem)) = some (1, []) := by decide
theorem test_label : after "loop:" State.reset (·.pc) = some 1 := by decide
theorem test_nop : after "nop" State.reset (·.pc) = some 1 := by decide
theorem test_nop_operand : faultOf "nop $t0" State.reset = some .badOperands := by decide
theorem test_unknown : faultOf "frobnicate $t0" State.reset = some (.unknownOperation (text "frobnicate")) := by decide
theorem test_halted : (command .step State.reset).map Prod.fst = some .halted := by decide

/-! ### Predictor (V220 to V226, X3 to X6) -/

/-- A table after a list of outcomes at one address. -/
def trained (c : Config) (outcomes : List Bool) : Bht :=
  outcomes.foldl (fun b o => (bhtUpdate c b 5 o).1) (Bht.zero c)

theorem test_saturation :
    let b := trained Config.reference [true, true, true, true, false, false, false, false, false]
    (b.counter 5, b.correct, b.incorrect) = (0, 5, 4) := by decide
theorem test_saturation_high : (trained Config.reference [true, true, true, true, true]).counter 5 = 3 := by decide
theorem test_one_bit_counter :
    let b := trained { Config.reference with ctrBits := 1 } [true, false, true, true, false]
    (b.counter 5, b.correct, b.incorrect) = (0, 1, 4) := by decide
theorem test_accuracy : bhtAccuracy ⟨[], 5, 4⟩ = 5 / 9 := by decide +kernel
theorem test_aggregate :
    aggregateAccuracy { State.reset with bhts := [⟨[], 1, 1⟩, ⟨[], 0, 0⟩] } = 1 / 2 ∧ bhtAccuracy ⟨[], 0, 0⟩ = 0 := by decide +kernel
theorem test_keys :
    ([3, 19, 35, 16].map (predictorKey Config.reference), predictorKey { Config.reference with keyBits := 0 } 7) = ([3, 3, 3, 0], 0) := by decide
theorem test_cbp_trace :
    let s := [true, true, false, true, true].foldl (fun s o => cbpUpdate s 5 o) State.reset
    (s.hist, s.bhts.map fun b => (b.counter 5, b.correct, b.incorrect)) =
      (3, [(1, 0, 1), (2, 0, 2), (1, 0, 1), (0, 1, 0)]) := by decide

/-! ### load (V230 to V242) -/

/-- The outcome of LOAD on the reset block. -/
def loaded (lines : List String) : Host.Outcome State Fault Refusal := loadLines (lines.map text) State.reset

theorem test_load_none : fault? (loaded []) = some .missingTextSection := by decide
theorem test_load_text_last : fault? (loaded [".data", "a: .word 1", ".text"]) = some .emptyProgram := by decide
theorem test_load_duplicate : fault? (loaded [".text", "X: nop", "x: nop"]) = some (.duplicateLabel (text "x")) := by decide
theorem test_load_decode_error : fault? (loaded [".text", "", "add $t0 $t1 $t2 $t3"]) = some (.decodeError (text "add $t0 $t1 $t2 $t3")) := by decide
/-- The state after LOAD of program P2's declarations. -/
def loadedP2 : Option State :=
  next? (loaded [".data", "arr: .word 10, 20, 30", "  ", "buf: .space 2", ".text", "la $t0, buf"])

theorem test_load_data : loadedP2.map (fun s => (s.dmem, s.dlabel)) = some ([10, 20, 30, 0, 0], [(text "arr", 0), (text "buf", 3)]) := by decide
theorem test_load_code : loadedP2.map (fun s => (s.pc, s.textStart, s.clabel)) = some (4, 4, [(text "arr", 1), (text "buf", 2)]) := by decide
theorem test_load_refuses_long : (load (List.replicate 2 (.nop none [])) { State.reset with cfg := { Config.reference with xlen := 2 } }) = .refused .programTooLong := by rfl

/-- A reset leaves the input oracle and the output alone (R330, R46). -/
theorem test_reset_keeps_the_oracle :
    let s := resetBlock { State.reset with draws := 3, inputSilent := true, out := [.printInt 7] }
    s.draws = 3 ∧ s.inputSilent = true ∧ s.out = [.printInt 7] := by decide

/-! ### One step, and the table's words -/

/-- The table word of `addi` is placed, fetched and run (log 16, log 17). -/
theorem test_fetch_word : fetch (State.reset.withFetchWord 16 0x0CD) = Fetched.line (.addi none [r "$zero", r "$zero", .int 0]) := by decide

/-- Every row's word is fetched by the next step as the instruction it decodes to. -/
theorem test_fetch_every_word :
    ([0x000, 0x040, 0x041, 0x080, 0x0FF] ++ (List.range 43).map fun id => 0x0C0 + id).all
      (fun w => match decodeTableWord 16 w with
        | some i => fetch (State.reset.withFetchWord 16 w) == Fetched.line i
        | none => false) = true := by decide +kernel

/-- From the placed word every row completes but `div` (its operands are all zero), `exit` and the
unknown operation, which raise as their rules say. -/
theorem test_step_every_word :
    ([0x000, 0x040, 0x041, 0x080, 0x0FF] ++ (List.range 43).map fun id => 0x0C0 + id).filter
      (fun w => (next? (step (State.reset.withFetchWord 16 w))).isNone) = [0x0FF, 0x0C4, 0x0EA] := by decide +kernel

/-! ### Witnesses: a concrete case that meets the premises of each obligation that has premises

Each theorem is named after the obligation; where an obligation has several clauses there is a case for
each, at the ends of the ranges. -/

/-- Whether an execution answers a next state. -/
def completes (i : Instr) (s : State) : Bool := (next? (exec i s)).isSome

/-- The reset state with `div`'s corner operands, both ends of the range. -/
def ends : State := withRegs [("$t1", -2147483648), ("$t2", 2147483647), ("$t3", -2)]

theorem witness_DecodeOfEncodeIsTheInstruction :
    mnemonicsWf Config.referenceMnemonics = true ∧
    Instr.wf Config.referenceMnemonics (.addi (some (text "l1")) [r "$t0", r "$t0", .int (-1)]) = true ∧
    Instr.wf Config.referenceMnemonics (.wordLine (text "a") [0, -5]) = true := by decide +kernel

theorem witness_DecodedRecordsAreWellFormed :
    mnemonicsWf Config.referenceMnemonics = true ∧
    (parse Config.referenceMnemonics (text "L1: ADDI $t0, $t0, -1")).toOption.isSome = true := by decide +kernel

theorem witness_SelectorsNumberTheOpcodeTable :
    [0x000, 0x040, 0x041, 0x080, 0x0C0, 0x0EA, 0x0EB, 0x0FE, 0x0FF, 0x1FF].all (fun w => w < 512) = true ∧
    decodeTableWord 16 0x0EB = none ∧ decodeTableWord 16 0x1FF = none := by decide

theorem witness_EveryRegisterWriteWraps :
    2 ≤ State.reset.cfg.xlen ∧ text "$t0" ≠ State.reset.cfg.zeroName ∧
    text "$t0" ∈ State.reset.cfg.gprNames ∧
    State.reset.regs.length = State.reset.cfg.gprNames.length := by decide

theorem witness_RegisterAccessIsByNameAndFramed :
    namesRegister State.reset.cfg (r "$t0") = true ∧ namesRegister State.reset.cfg (r "$zero") = true ∧
    namesRegister State.reset.cfg (r "hi") = false ∧ namesRegister State.reset.cfg (.int 5) = false := by decide

theorem witness_DataAccessIsBoundedAndFramed :
    (data3 0 0).dmem.length = 3 ∧ (memRead (data3 0 0) 0).toOption = some 10 ∧
    (memRead (data3 0 0) 2).toOption = some 30 ∧ (memRead (data3 0 0) 3).toOption = none ∧
    (memRead (data3 0 0) (-1)).toOption = none := by decide

/-- The premises that `AddSubAddiWriteTheSum`, `BitwiseInstructionsActOnPatterns`,
`RegisterShiftsReduceTheAmount`, `ImmediateShiftsReduceTheAmount`, `SetLessComparesSigned`,
`LoadImmediatesWriteTheLiteral` and `MovesCopyOneRegister` share; the zero register is admitted too. -/
theorem witness_register_operands :
    namesRegister ends.cfg (r "$t0") = true ∧ namesRegister ends.cfg (r "$zero") = true ∧
    (readReg ends (r "$t1")).toOption = some (-2147483648) ∧
    (readReg ends (r "$t2")).toOption = some 2147483647 ∧
    (readReg ends (r "$zero")).toOption = some 0 := by decide

theorem witness_MultSplitsTheExactProduct :
    ends.wf = true ∧ (readReg ends (r "$t1")).toOption = some (-2147483648) := by decide +kernel

/-- A zero divisor, and a negative one with an inexact quotient (by hand: floor of `(2 ^ 31 - 1) / -2`). -/
theorem witness_DivRoundsAsConfigured :
    namesRegister ends.cfg (r "$t0") = true ∧ (readReg ends (r "$t9")).toOption = some 0 ∧
    (readReg ends (r "$t3")).toOption = some (-2) ∧
    regAfter "div $t0, $t2, $t3" ends "$t0" = some (-1073741824) := by decide

/-- Both ends of the data segment and the two indices beside them. -/
theorem witness_LwLoadsTheIndexedWord :
    (readReg (data3 4 0) (r "$t0")).toOption = some 4 ∧
    [(-2 : Int), -1, 1, 2].map (wordIndex Config.reference 4) = [-1, 0, 2, 3] ∧
    (data3 4 0).dmem[0]? = some 10 ∧ (data3 4 0).dmem[2]? = some 30 ∧
    namesRegister (data3 4 0).cfg (r "$t1") = true := by decide

theorem witness_SwStoresOneWord :
    (readReg (data3 4 7) (r "$t0")).toOption = some 4 ∧ (readReg (data3 4 7) (r "$t1")).toOption = some 7 ∧
    (data3 4 7).dmem.length = 3 ∧
    [(-2 : Int), -1, 1, 2].map (wordIndex Config.reference 4) = [-1, 0, 2, 3] := by decide

theorem witness_LaLoadsTheScaledLabelIndex :
    namesRegister (data3 0 0).cfg (r "$t0") = true ∧ (data3 0 0).dlabel.lookup (text "b") = some 3 ∧
    (data3 0 0).dlabel.lookup (text "c") = none := by decide

/-- `ComparisonBranchesComplete` and `JumpCompletesAsATakenBranch`. -/
theorem witness_declared_target :
    (readReg (at7 4 4) (r "$t0")).toOption = some 4 ∧ (readReg (at7 4 4) (r "$t1")).toOption = some 4 ∧
    (at7 4 4).clabel.lookup (text "l") = some 2 := by decide

/-- A name that is no code label; an integer meets the premise on names by having none. -/
theorem witness_TargetsAreResolvedOnlyWhenTaken :
    (readReg (at7 4 5) (r "$t0")).toOption = some 4 ∧ (readReg (at7 4 5) (r "$t1")).toOption = some 5 ∧
    (at7 4 5).clabel.lookup (text "nowhere") = none := by decide

theorem witness_PrintsAppendOneEvent :
    (readReg (withRegs [("$a0", -7)]) (.sym State.reset.cfg.sysArgReg)).toOption = some (-7) := by decide

theorem witness_ReadsWriteTheProvidersAnswer :
    State.reset.inputSilent = false ∧
    namesRegister State.reset.cfg (.sym State.reset.cfg.sysResReg) = true ∧
    ({ State.reset with inputSilent := true } : State).inputSilent = true := by decide

/-- Both directions' premises: `exit` without and with an operand, and an unknown operation. -/
theorem witness_ExitAloneRaisesNotImplemented :
    fault? (exec (.exit none []) State.reset) = some (.notImplemented (text "exit")) ∧
    fault? (exec (.exit none [.int 1]) State.reset) = some .badOperands := by decide

theorem witness_UnknownOperationsAloneRaiseUnknownOperation :
    fault? (exec (.unknownOp none (text "frob") []) State.reset) = some (.unknownOperation (text "frob")) := by decide

theorem witness_BadOperandsExactlyWhenTheFormatFails :
    (Instr.add none [r "$t0", r "$t1", r "$t2"]).operation? = some (1, none, [r "$t0", r "$t1", r "$t2"]) ∧
    formats[1]? = some Format.fr3 ∧ formatFits .fr3 [r "$t0", r "$t1", r "$t2"] = true ∧
    formatFits .fr3 [r "$t0", r "$t1"] = false ∧ formatFits .f0 [] = true := by decide

/-- A case of each clause: the format of its op id, and a register operand that names none. -/
theorem witness_RegisterErrorsComeInOrder :
    [1, 4, 13, 8, 3, 31, 26, 23].map (fun id => formats[id]?) =
      [some Format.fr3, some .fr3, some .fi, some .fr2, some .frs2, some .fb, some .fr1, some .fri] ∧
    (Instr.lw none [r "$t0", .int 0, r "$t1"]).operation? =
      some (21, none, [r "$t0", .int 0, r "$t1"]) ∧
    (Instr.sw none [r "$t0", .int 0, r "$t1"]).operation?.isSome = true ∧
    (data3 0 0).dlabel.lookup (text "a") = some 0 ∧
    [faultOf "add $t0, $x, $y" State.reset, faultOf "add $t0, $t1, $y" State.reset,
      faultOf "add $x, $t1, $t2" State.reset, faultOf "div $x, $t1, $t2" State.reset,
      faultOf "addi $t0, $x, 1" State.reset, faultOf "addi $x, $t0, 1" State.reset,
      faultOf "not $t0, $x" State.reset, faultOf "not $x, $t0" State.reset,
      faultOf "mult $x, $y" State.reset, faultOf "mult $t0, $y" State.reset,
      faultOf "beq $x, $y, l" State.reset, faultOf "beq $t0, $y, l" State.reset,
      faultOf "mfhi $x" State.reset, faultOf "li $x, 1" State.reset,
      faultOf "lw $t0, 9($x)" State.reset, faultOf "lw $x, 2($t0)" (data3 0 0),
      faultOf "sw $x, 9($y)" State.reset, faultOf "sw $t0, 9($y)" State.reset,
      faultOf "la $x, a" (data3 0 0)] =
      [r "$x", r "$y", r "$x"].map (fun o => some (.unknownRegister o)) ++ [some .divideByZero] ++
      [r "$x", r "$x", r "$x", r "$x", r "$x", r "$y", r "$x", r "$y", r "$x", r "$x", r "$x", r "$x",
        r "$x", r "$y", r "$x"].map (fun o => some (.unknownRegister o)) := by decide +kernel

/-- One raise of each kind a step has, in an admitted configuration. -/
theorem witness_StepErrorsComeFromTheirInstructions :
    State.reset.cfg.valid = true ∧
    [faultOf "add $t0, $x, $t2" State.reset, faultOf "j nowhere" State.reset, faultOf "la $t0, c" State.reset,
      faultOf "lw $t0, 0($t0)" State.reset, faultOf "frob" State.reset, faultOf "exit" State.reset,
      faultOf "div $t0, $t0, $t0" State.reset, faultOf "nop 1" State.reset,
      faultOf "read_int" { State.reset with inputSilent := true }].all Option.isSome = true := by decide +kernel

/-- `NoInstructionChangesTheProgram`, `EachStateHasItsOwnWriters`, `AtMostOneRegisterChanges` and
`ThePcMovesToTheNextLineOrATarget`: instructions of every unit complete, and so meet every clause. -/
theorem witness_completing_instructions :
    completes (.nop none []) State.reset = true ∧ completes (.add none [r "$t0", r "$t1", r "$t2"]) ends = true ∧
    completes (.sw none [r "$t1", .int 2, r "$t0"]) (data3 0 0) = true ∧
    completes (.mult none [r "$t1", r "$t2"]) ends = true ∧ completes (.j none [r "l"]) (at7 0 0) = true ∧
    completes (.printInt none []) State.reset = true ∧ completes (.mthi none [r "$t1"]) ends = true ∧
    completes (.labelLine (text "x")) State.reset = true := by decide +kernel

/-- The placed `add`: at a pc inside the program, in a state that meets the invariant, whose step answers
a next state (`StepRunsTheLineAtThePc`, `EveryStepKeepsTheInvariant`, `NoWellFormedMachineIsRefused`). -/
theorem witness_step_of_the_invariant :
    let s := State.reset.withFetchWord 16 0x0C1
    s.wf = true ∧ 0 ≤ s.pc ∧ (s.prog[s.pc.toNat]?).isSome = true ∧ (next? (step s)).isSome = true := by decide +kernel

theorem witness_AHaltedMachineStaysAsItIs :
    0 ≤ State.reset.pc ∧ (State.reset.prog.length : Int) ≤ State.reset.pc := by decide

theorem witness_AFailedStepChangesNothing :
    let s := State.reset.withFetchWord 16 0x0FF
    (command .step s).map (fun x => x.1) = some (.error (.unknownOperation (text "unknown"))) := by decide +kernel

theorem witness_PowerOnMeetsTheInvariant : Config.reference.valid = true := test_reference_valid

/-- A program that loads, on a state that meets the invariant (`LoadAndResetKeepTheInvariant`,
`LoadBuildsTheProgramsTables`, `DataViewSlicesMakeUpTheSegment`, `ResetClearsTheBlock`). -/
theorem witness_load_succeeds :
    ends.wf = true ∧ (next? (load [.spaceLine (text "a") 0, .wordLine (text "b") [1, 2147483648],
      .sectionLine (text ".text"), .labelLine (text "c"), .j none [r "c"]] ends)).isSome = true := by decide +kernel

/-- The two counters around the threshold, and both ends (R242). -/
theorem witness_TakenIsTheTopBitOfTheCounter :
    1 ≤ Config.reference.ctrBits ∧ ctrMax Config.reference = 3 ∧
    [0, 1, 2, 3].map (counterTaken Config.reference) = [false, false, true, true] := by decide

/-- `BhtUpdateTrainsOneCounter` and `RepeatedOutcomesSaturateTheCounter`. -/
theorem witness_table_in_range :
    Bht.wf Config.reference (trained Config.reference [true, true]) = true ∧
    ctrMax Config.reference ≤ 3 := by decide

theorem witness_HistoryHoldsTheLastOutcomes :
    State.reset.hist < 2 ^ State.reset.cfg.histBits ∧
    State.reset.cfg.histBits ≤ [((5 : Int), true), (5, false)].length := by decide

/-- `PredictionsReadTheKeyedCounter`, `CbpUpdateTouchesOnlyTheActiveTable` and
`OneUpdatePerCompletedJump`. -/
theorem witness_predictor_in_range :
    1 ≤ (at7 4 4).cfg.ctrBits ∧ predictorWf (at7 4 4) = true ∧ completes (.j none [r "l"]) (at7 4 4) = true ∧
    completes (.nop none []) (at7 4 4) = true := by decide

/-- An idle table and one that has been updated. -/
theorem witness_AccuraciesAreShares :
    (Bht.zero Config.reference).correct + (Bht.zero Config.reference).incorrect = 0 ∧
    (trained Config.reference [true]).correct + (trained Config.reference [true]).incorrect ≠ 0 := by decide

/-- Two machines that differ in the history, in the counters' width and in the update key. -/
theorem witness_ThePredictorNeverAffectsExecution :
    sameArchitecture State.reset
      { State.reset with hist := 3, cfg := { Config.reference with ctrBits := 1, updateKey := .prePc } } :=
  ⟨by decide, by decide⟩

/-- Two such machines at a jump, which both complete (no step before it: `n` is 0). -/
theorem witness_ThePredictorNeverAffectsExecution_at_a_jump :
    let s := { at7 4 4 with prog := List.replicate 12 (.j none [r "l"]) }
    let t := { s with hist := 3 }
    sameArchitecture s t ∧ (s.prog[s.pc.toNat]?).bind unitOfLine = some .jump ∧
      (next? (step s)).isSome = true ∧ (next? (step t)).isSome = true :=
  ⟨⟨by decide, by decide⟩, by decide, by decide, by decide⟩

/-- The five outcomes of `load`, by its checks; the widest program that is admitted and the next. -/
theorem witness_LoadChecksComeInOrder :
    maxVal 2 = 1 ∧ maxVal State.reset.cfg.xlen = 2147483647 ∧
    (∀ i ∈ [Instr.nop none []], isTextMarker i = false) ∧ isTextMarker (.sectionLine (text ".text")) = true ∧
    ¬ (programLabels [.sectionLine (text ".text"), .labelLine (text "x"), .labelLine (text "x")]).Nodup ∧
    (programLabels [.sectionLine (text ".text"), .labelLine (text "x"), .nop none []]).Nodup := by decide

/-- Lines that all decode, and lines whose second does not. -/
theorem witness_LoadDecodesTheLinesInOrder :
    [text "nop", text " \t", text "x:"].filter (fun line => !(line.all fun ch => ch == ' ' || ch == '\t')) =
      [text "nop", text "x:"] ∧
    [text "nop", text "x:"].map (fun l => (parse Config.referenceMnemonics l).toOption) =
      [Instr.nop none [], .labelLine (text "x")].map some ∧
    (parse Config.referenceMnemonics (text "#")).toOption = none := by decide

theorem witness_ARunHasOneEnd_halted : RunEnds State.reset .halted State.reset :=
  .stop (by rfl) (by decide)

theorem witness_ARunHasOneEnd_error :
    RunEnds (State.reset.withFetchWord 16 0x0FF) (.error (.unknownOperation (text "unknown")))
      (State.reset.withFetchWord 16 0x0FF) :=
  .stop (by rfl) (by decide)

end Sys2Proof.Tests
end

/-! ## The rules of the register and label operations, and what they settle: O7, O8, O9, O60 -/

section
namespace Sys2Proof.Proofs

open Sys2Proof Sys2Proof.Machine

/-! ### Numbers -/

theorem pow2_eq_two_pow (n : Nat) : pow2 n = (2 : Int) ^ n := by simp [pow2]

/-- `wrap` keeps a value's residue modulo `2 ^ XLEN` (00_scope.md R12). -/
theorem two_pow_dvd_wrap_sub (n : Nat) (v : Int) : (2 : Int) ^ n ∣ wrap n v - v := by
  have hdiv := Int.emod_add_mul_ediv (v - minVal n) (pow2 n)
  rw [← pow2_eq_two_pow]
  exact ⟨-((v - minVal n) / pow2 n), by unfold wrap; linarith⟩

/-- The first value past `MAX` wraps to `MIN`. -/
theorem wrap_two_pow_pred {n : Nat} (h : 1 ≤ n) :
    wrap n ((2 : Int) ^ (n - 1)) = -(2 : Int) ^ (n - 1) := by
  have hspan : pow2 (n - 1) - -pow2 (n - 1) = pow2 n := by have := pow2_succ n h; omega
  rw [← pow2_eq_two_pow, wrap, minVal, hspan, Int.emod_self, zero_add]

/-! ### Registers -/

/-- A general register has a place in the register file. -/
theorem exists_regIndex_of_mem {c : Config} {name : Text} (h : name ∈ c.gprNames) :
    ∃ k, regIndex c name = some k :=
  Option.isSome_iff_exists.mp (List.isSome_idxOf?.mpr h)

/-- The name at a register's place is the register's own. -/
theorem getElem?_of_regIndex {c : Config} {name : Text} {k : Nat} (h : regIndex c name = some k) :
    c.gprNames[k]? = some name := by
  obtain ⟨hk, hname, -⟩ := List.idxOf?_eq_some_iff.mp h
  rw [List.getElem?_eq_getElem hk, hname]

theorem regIndex_lt {c : Config} {name : Text} {k : Nat} (h : regIndex c name = some k) :
    k < c.gprNames.length :=
  (List.getElem?_eq_some_iff.mp (getElem?_of_regIndex h)).1

/-- No two register names share a place. -/
theorem regIndex_injective {c : Config} {name name' : Text} {k : Nat}
    (h : regIndex c name = some k) (h' : regIndex c name' = some k) : name = name' :=
  Option.some.inj ((getElem?_of_regIndex h).symm.trans (getElem?_of_regIndex h'))

@[simp] theorem readReg_zeroName (s : State) : readReg s (.sym s.cfg.zeroName) = .ok 0 := by
  simp [readReg]

theorem readReg_of_regIndex {s : State} {name : Text} {k : Nat} (hz : name ≠ s.cfg.zeroName)
    (hk : regIndex s.cfg name = some k) : readReg s (.sym name) = .ok (s.regs.getD k 0) := by
  simp [readReg, hz, hk]

@[simp] theorem writeReg_zeroName (s : State) (v : Int) :
    writeReg s (.sym s.cfg.zeroName) v = .ok s := by
  simp [writeReg]

theorem writeReg_of_regIndex {s : State} {name : Text} {k : Nat} (hz : name ≠ s.cfg.zeroName)
    (hk : regIndex s.cfg name = some k) (v : Int) :
    writeReg s (.sym name) v = .ok (s.setReg k v) := by
  simp [writeReg, hz, hk]

/-- A register reads back what was last written at its place, wrapped (10_state.md R23). -/
theorem readReg_setReg_same {s : State} {name : Text} {k : Nat} (v : Int)
    (hz : name ≠ s.cfg.zeroName) (hk : regIndex s.cfg name = some k) (hlen : k < s.regs.length) :
    readReg (s.setReg k v) (.sym name) = .ok (wrap s.cfg.xlen v) := by
  rw [readReg_of_regIndex (s := s.setReg k v) hz hk]
  simp [hlen]

/-- A write at one place leaves every operand of another name as it reads. -/
theorem readReg_setReg_ne {s : State} {name : Text} {k : Nat} (v : Int) {o : Operand}
    (hk : regIndex s.cfg name = some k) (ho : o ≠ .sym name) :
    readReg (s.setReg k v) o = readReg s o := by
  cases o with
  | int i => rfl
  | sym name' =>
    have hplace : regIndex s.cfg name' ≠ some k := fun hk' =>
      ho (congrArg Operand.sym (regIndex_injective hk' hk))
    by_cases hz : name' = s.cfg.zeroName
    · simp [readReg, hz]
    · cases hk' : regIndex s.cfg name' with
      | none => simp [readReg, hz, hk']
      | some k' =>
        have hne : k ≠ k' := fun h => hplace (h ▸ hk')
        simp [readReg, hz, hk', List.getElem?_set_ne hne]

/-- An operand that names a register is the zero register or a general one (10_state.md R24). -/
theorem namesRegister_iff {c : Config} {o : Operand} :
    namesRegister c o = true ↔ o = .sym c.zeroName ∨
      ∃ name k, o = .sym name ∧ name ≠ c.zeroName ∧ regIndex c name = some k := by
  constructor
  · intro h
    cases o with
    | int i => cases h
    | sym name =>
      by_cases hz : name = c.zeroName
      · exact .inl (congrArg _ hz)
      · have hmem : name ∈ c.gprNames := by simpa [namesRegister, hz] using h
        obtain ⟨k, hk⟩ := exists_regIndex_of_mem hmem
        exact .inr ⟨name, k, rfl, hz, hk⟩
  · rintro (rfl | ⟨name, k, rfl, -, hk⟩)
    · simp [namesRegister]
    · simp [namesRegister, List.mem_of_getElem? (getElem?_of_regIndex hk)]

@[simp] theorem put_zeroName (s : State) (v : Int) : s.put (.sym s.cfg.zeroName) v = s := by
  simp [State.put]

theorem put_of_regIndex {s : State} {name : Text} {k : Nat} (hz : name ≠ s.cfg.zeroName)
    (hk : regIndex s.cfg name = some k) (v : Int) : s.put (.sym name) v = s.setReg k v := by
  unfold regIndex at hk
  simp [State.put, hz, hk, State.setReg]

/-- An operand that names no register is an integer or a name without a place. -/
theorem access_of_not_namesRegister {s : State} {o : Operand} (v : Int)
    (h : namesRegister s.cfg o = false) :
    writeReg s o v = .error (.unknownRegister o) ∧ readReg s o = .error (.unknownRegister o) := by
  cases o with
  | int i => exact ⟨rfl, rfl⟩
  | sym name =>
    have hname : name ≠ s.cfg.zeroName ∧ name ∉ s.cfg.gprNames := by
      simpa [namesRegister] using h
    obtain ⟨hz, hmem⟩ := hname
    have hk : regIndex s.cfg name = none := List.idxOf?_eq_none_iff.mpr hmem
    simp [writeReg, readReg, hz, hk]

/-- Settles O7. The general register by its place; `pc`, `hi` and `lo` by their updates; the rest is
what `wrap` is. -/
theorem everyRegisterWriteWraps : Obligations.EveryRegisterWriteWraps := by
  intro s name v hx hz hmem hlen
  have hx1 : 1 ≤ s.cfg.xlen := by omega
  obtain ⟨k, hk⟩ := exists_regIndex_of_mem hmem
  have hread := readReg_setReg_same v hz hk (hlen ▸ regIndex_lt hk)
  obtain ⟨hmin, hmax⟩ := wrap_mem_range hx1 v
  exact ⟨⟨s.setReg k v, writeReg_of_regIndex hz hk v, hread⟩, setPc_pc s v, setHi_hi s v,
    setLo_lo s v, hmin, hmax, two_pow_dvd_wrap_sub _ v, wrap_two_pow_pred hx1⟩

/-- Settles O8, by what the operand names: the zero register, a general register, or none. -/
theorem registerAccessIsByNameAndFramed : Obligations.RegisterAccessIsByNameAndFramed := by
  intro s o v
  refine ⟨fun h => ?_, access_of_not_namesRegister v⟩
  obtain rfl | ⟨name, k, rfl, hz, hk⟩ := namesRegister_iff.mp h
  · simp
  · rw [put_of_regIndex hz hk]
    exact ⟨writeReg_of_regIndex hz hk v, ⟨_, readReg_of_regIndex hz hk⟩,
      fun o' ho => readReg_setReg_ne v hk ho⟩

/-- Settles O9, by the two rules of the zero register (10_state.md R22). -/
theorem zeroRegisterAlwaysReadsZero : Obligations.ZeroRegisterAlwaysReadsZero :=
  fun s v => ⟨writeReg_zeroName s v, readReg_zeroName s⟩

/-! ### Label maps -/

/-- A label put into a map is found at the index it was put with. -/
theorem lookup_put_same (m : LabelMap) (label : Text) (index : Nat) :
    (LabelMap.put m label index).lookup label = some index := by
  induction m with
  | nil => simp [LabelMap.put]
  | cons e rest ih =>
    obtain ⟨head, k⟩ := e
    by_cases hhead : head = label
    · simp [LabelMap.put, hhead]
    · simp [LabelMap.put, hhead, List.lookup_cons, beq_false_of_ne (Ne.symm hhead), ih]

/-- Every other label of the map keeps its index. -/
theorem lookup_put_ne {l label : Text} (m : LabelMap) (index : Nat) (h : l ≠ label) :
    (LabelMap.put m label index).lookup l = m.lookup l := by
  induction m with
  | nil => simp [LabelMap.put, List.lookup_cons, beq_false_of_ne h]
  | cons e rest ih =>
    obtain ⟨head, k⟩ := e
    by_cases hhead : head = label
    · simp [LabelMap.put, hhead, List.lookup_cons, beq_false_of_ne h]
    · simp [LabelMap.put, hhead, List.lookup_cons, ih]

/-- Settles O60: the label map by the two rules of `put`, the other fields by `appendData`'s laws. -/
theorem setDataReturnsTheBaseItRecords : Obligations.SetDataReturnsTheBaseItRecords := by
  intro s t label values base h
  obtain ⟨rfl, rfl⟩ := Prod.mk.inj h
  exact ⟨rfl, appendData_dmem s label values, lookup_put_same _ _ _,
    fun l hl => lookup_put_ne _ _ hl, rfl⟩

end Sys2Proof.Proofs
end

/-! ## What a line can do, and the machine's invariant: O37, O41, O58 -/

section
namespace Sys2Proof.Proofs

open Sys2Proof Sys2Proof.Machine

/-! ### What a line can do

A completed line either makes the writes of its unit and advances the pc, or is a branch step
(46_cpu.md R276 to R280). `exec_cases` splits the dispatch once; every claim about all lines follows
from it. -/

/-- The states a unit's `execute` can make of `s`: by writes of registers, accumulators, data words,
output and input, and none of the pc, the program, the labels or the predictor. -/
inductive UnitWrites (s : State) : State → Prop where
  | unchanged : UnitWrites s s
  | setReg {t : State} (k : Nat) (v : Int) : UnitWrites s t → UnitWrites s (t.setReg k v)
  | setHi {t : State} (v : Int) : UnitWrites s t → UnitWrites s (t.setHi v)
  | setLo {t : State} (v : Int) : UnitWrites s t → UnitWrites s (t.setLo v)
  | setWord {t : State} (k : Nat) (v : Int) : UnitWrites s t → UnitWrites s (t.setWord k v)
  | emit {t : State} (e : Event) : UnitWrites s t → UnitWrites s (t.emit e)
  | drawn {t : State} : UnitWrites s t → UnitWrites s t.drawn

/-- A unit's writes leave the pc, the program and the configuration. -/
theorem UnitWrites.frame {s t : State} (h : UnitWrites s t) :
    t.pc = s.pc ∧ t.prog = s.prog ∧ t.cfg = s.cfg := by
  induction h with
  | unchanged => exact ⟨rfl, rfl, rfl⟩
  | setReg _ _ _ ih | setHi _ _ ih | setLo _ _ ih | setWord _ _ _ ih | emit _ _ ih | drawn _ ih =>
    exact ih

theorem writeReg_unitWrites {s t : State} {o : Operand} {v : Int} (h : writeReg s o v = .ok t) :
    UnitWrites s t := by
  obtain ⟨name, -, ⟨-, rfl⟩ | ⟨-, k, -, rfl⟩⟩ := writeReg_ok h
  · exact .unchanged
  · exact .setReg k v .unchanged

theorem alu3_unitWrites {f : Int → Int → Except Fault Int} {ops : List Operand} {s t : State}
    (h : alu3 f ops s = .ok t) : UnitWrites s t := by
  obtain ⟨rd, rs, rt, a, b, v, -, -, -, -, hw⟩ := alu3_ok h
  exact writeReg_unitWrites hw

theorem aluImm_unitWrites {f : Int → Int → Int} {ops : List Operand} {s t : State}
    (h : aluImm f ops s = .ok t) : UnitWrites s t := by
  obtain ⟨rd, rs, k, a, -, -, hw⟩ := aluImm_ok h
  exact writeReg_unitWrites hw

theorem unary_unitWrites {f : Int → Int} {ops : List Operand} {s t : State}
    (h : unary f ops s = .ok t) : UnitWrites s t := by
  obtain ⟨rd, rs, a, -, -, hw⟩ := unary_ok h
  exact writeReg_unitWrites hw

theorem printArg_unitWrites {event : Int → Event} {ops : List Operand} {s t : State}
    (h : printArg event ops s = .ok t) : UnitWrites s t := by
  obtain ⟨v, -, -, rfl⟩ := printArg_ok h
  exact .emit _ .unchanged

theorem readInput_unitWrites {answer : Nat → Int} {ops : List Operand} {s t : State}
    (h : readInput answer ops s = .ok t) : UnitWrites s t := by
  obtain ⟨u, -, -, hw, rfl⟩ := readInput_ok h
  exact .drawn (writeReg_unitWrites hw)

/-- The operand a Jump-Unit opcode's execution answers is the last one of the line. -/
theorem compareRegs_target {f : Int → Int → Bool} {ops : List Operand} {s : State} {taken : Bool}
    {target : Operand} (h : compareRegs f ops s = .ok (taken, target)) :
    ops.getLast? = some target := by
  obtain ⟨rs, rt, target', a, b, rfl, -, -, hr⟩ := compareRegs_ok h
  cases hr
  rfl

theorem alwaysTaken_target {ops : List Operand} {taken : Bool} {target : Operand}
    (h : alwaysTaken ops = .ok (taken, target)) : ops.getLast? = some target := by
  simp only [alwaysTaken, bind_ok, format1_ok] at h
  obtain ⟨target', rfl, hr⟩ := h
  cases hr
  rfl

/-- `exit` raises on every path: BadOperands or NotImplemented (44_syscall_unit.md R235). -/
theorem execExit_raises (ops : List Operand) (s : State) : ∃ e, execExit ops s = .fault e := by
  unfold execExit
  split
  · exact ⟨_, rfl⟩
  · exact ⟨_, rfl⟩

/-- The three ways a line runs: a unit's execution and the pc's advance, a branch step, or an error. -/
theorem exec_cases (i : Instr) (s : State) :
    (∃ r, exec i s = complete r ∧ ∀ u, r = .ok u → UnitWrites s u) ∨
    (unitOfLine i = some .jump ∧ ∃ x, exec i s = branchStep x s ∧
      ∀ taken target, x = .ok (taken, target) → i.operands.getLast? = some target) ∨
    ∃ e, exec i s = .fault e := by
  cases i with
  | sectionLine _ | spaceLine _ _ | wordLine _ _ | labelLine _ =>
    exact .inl ⟨.ok s, rfl, fun _ h => by cases h; exact .unchanged⟩
  | nop l ops =>
    refine .inl ⟨_, rfl, fun u h => ?_⟩
    obtain ⟨_, -, h⟩ := bind_ok.mp h
    cases h
    exact .unchanged
  | add l ops | sub l ops | div l ops | and l ops | or l ops | xor l ops | slt l ops | sllv l ops
  | srlv l ops | srav l ops =>
    exact .inl ⟨_, rfl, fun _ => alu3_unitWrites⟩
  | addi l ops | andi l ops | ori l ops | xori l ops | slti l ops | sll l ops | srl l ops
  | sra l ops =>
    exact .inl ⟨_, rfl, fun _ => aluImm_unitWrites⟩
  | not l ops | move l ops => exact .inl ⟨_, rfl, fun _ => unary_unitWrites⟩
  | mult l ops =>
    refine .inl ⟨_, rfl, fun u h => ?_⟩
    simp only [bind_ok] at h
    obtain ⟨_, -, _, -, _, -, h⟩ := h
    cases h
    exact .setLo _ (.setHi _ .unchanged)
  | lw l ops =>
    refine .inl ⟨_, rfl, fun u h => ?_⟩
    simp only [bind_ok] at h
    obtain ⟨_, -, _, -, _, -, hw⟩ := h
    exact writeReg_unitWrites hw
  | sw l ops =>
    refine .inl ⟨_, rfl, fun u h => ?_⟩
    simp only [bind_ok] at h
    obtain ⟨_, -, _, -, _, -, hw⟩ := h
    obtain ⟨-, -, rfl⟩ := memWrite_ok hw
    exact .setWord _ _ .unchanged
  | la l ops =>
    refine .inl ⟨_, rfl, fun u h => ?_⟩
    simp only [bind_ok] at h
    obtain ⟨_, -, _, -, hw⟩ := h
    exact writeReg_unitWrites hw
  | li l ops | lui l ops | mfhi l ops | mflo l ops =>
    refine .inl ⟨_, rfl, fun u h => ?_⟩
    obtain ⟨_, -, hw⟩ := bind_ok.mp h
    exact writeReg_unitWrites hw
  | mthi l ops =>
    refine .inl ⟨_, rfl, fun u h => ?_⟩
    simp only [bind_ok] at h
    obtain ⟨_, -, _, -, h⟩ := h
    cases h
    exact .setHi _ .unchanged
  | mtlo l ops =>
    refine .inl ⟨_, rfl, fun u h => ?_⟩
    simp only [bind_ok] at h
    obtain ⟨_, -, _, -, h⟩ := h
    cases h
    exact .setLo _ .unchanged
  | printInt l ops | printChar l ops => exact .inl ⟨_, rfl, fun _ => printArg_unitWrites⟩
  | readInt l ops | readChar l ops => exact .inl ⟨_, rfl, fun _ => readInput_unitWrites⟩
  | beq l ops | bne l ops | bgt l ops | bge l ops | blt l ops | ble l ops =>
    exact .inr (.inl ⟨rfl, _, rfl, fun _ _ => compareRegs_target⟩)
  | j l ops => exact .inr (.inl ⟨rfl, _, rfl, fun _ _ => alwaysTaken_target⟩)
  | exit l ops => exact .inr (.inr (execExit_raises ops s))
  | unknownOp l opcode ops => exact .inr (.inr ⟨_, rfl⟩)

/-- What a completed line leaves: its unit's writes and the next pc, or the branch step to where the
last operand of a Jump-Unit opcode sends it. -/
theorem exec_next {i : Instr} {s t : State} (h : exec i s = .next t) :
    (∃ u, UnitWrites s u ∧ t = u.advance) ∨
    (unitOfLine i = some .jump ∧ ∃ taken target newPc, i.operands.getLast? = some target ∧
      branchPc s taken target = .ok newPc ∧ t = branchTo s newPc taken) := by
  obtain ⟨r, hr, hwrites⟩ | ⟨hjump, x, hx, htarget⟩ | ⟨e, he⟩ := exec_cases i s
  · obtain ⟨u, hu, rfl⟩ := complete_next.mp (hr.symm.trans h)
    exact .inl ⟨u, hwrites u hu, rfl⟩
  · obtain ⟨taken, target, newPc, hok, hpc, rfl⟩ := branchStep_next (hx.symm.trans h)
    exact .inr ⟨hjump, taken, target, newPc, htarget taken target hok, hpc, rfl⟩
  · cases he.symm.trans h

theorem branchStep_not_refused (x : Except Fault (Bool × Operand)) (s : State) (r : Refusal) :
    branchStep x s ≠ .refused r := by
  unfold branchStep
  split
  · exact nofun
  · exact nofun

/-- Every instruction has a meaning: a next state or an error. -/
theorem exec_not_refused (i : Instr) (s : State) (r : Refusal) : exec i s ≠ .refused r := by
  obtain ⟨x, hx, -⟩ | ⟨-, x, hx, -⟩ | ⟨e, he⟩ := exec_cases i s
  · exact hx ▸ complete_not_refused x r
  · exact hx ▸ branchStep_not_refused x s r
  · exact he ▸ nofun

/-- The pc a branch step leaves. -/
@[simp] theorem branchTo_pc (s : State) (newPc : Int) (taken : Bool) :
    (branchTo s newPc taken).pc = wrap s.cfg.xlen newPc := rfl

/-- Settles O37: a unit's writes leave the pc to the advance; a branch step goes to its target's line
when taken, to the next line when not. -/
theorem thePcMovesToTheNextLineOrATarget : Obligations.ThePcMovesToTheNextLineOrATarget := by
  intro i s t h
  obtain ⟨u, hu, rfl⟩ | ⟨hjump, taken, target, newPc, hlast, hpc, rfl⟩ := exec_next h
  · obtain ⟨hpc, -, hcfg⟩ := hu.frame
    exact .inl (by rw [advance_pc, hpc, hcfg])
  · obtain ⟨-, name, line, rfl, hline, rfl⟩ | ⟨-, rfl⟩ := branchPc_ok hpc
    · exact .inr ⟨hjump, name, line, hlast, hline, branchTo_pc s line taken⟩
    · exact .inl (branchTo_pc s (s.pc + 1) taken)

/-! ### The parts of the invariant -/

theorem inRange_iff {c : Config} {v : Int} :
    inRange c v = true ↔ minVal c.xlen ≤ v ∧ v ≤ maxVal c.xlen := by
  simp [inRange]

theorem registersWf_iff {s : State} :
    registersWf s = true ↔ s.regs.length = s.cfg.gprNames.length ∧
      (∀ v ∈ s.regs, inRange s.cfg v = true) ∧ inRange s.cfg s.pc = true ∧
      inRange s.cfg s.hi = true ∧ inRange s.cfg s.lo = true ∧ inRange s.cfg s.lastAddr = true := by
  simp [registersWf, and_assoc]

theorem programWf_iff {s : State} :
    programWf s = true ↔ 0 ≤ s.pc ∧ s.pc ≤ s.prog.length ∧
      (s.prog.length : Int) ≤ maxVal s.cfg.xlen ∧ (∀ e ∈ s.clabel, e.2 < s.prog.length) ∧
      s.textStart ≤ s.prog.length := by
  simp [programWf, and_assoc]

theorem dataWf_iff {s : State} :
    dataWf s = true ↔ Memory.wf s.cfg s.dmem = true ∧ ∀ e ∈ s.dlabel, e.2 ≤ s.dmem.length := by
  simp [dataWf]

theorem bht_wf_iff {c : Config} {b : Bht} :
    b.wf c = true ↔ b.ctr.length = 2 ^ c.keyBits ∧ ∀ n ∈ b.ctr, n ≤ ctrMax c := by
  simp [Bht.wf]

theorem predictorWf_iff {s : State} :
    predictorWf s = true ↔ s.bhts.length = 2 ^ s.cfg.histBits ∧ s.hist < 2 ^ s.cfg.histBits ∧
      ∀ b ∈ s.bhts, b.wf s.cfg = true := by
  simp [predictorWf, and_assoc]

theorem state_wf_iff {s : State} :
    s.wf = true ↔ s.cfg.valid = true ∧ registersWf s = true ∧ programWf s = true ∧
      dataWf s = true ∧ predictorWf s = true := by
  simp [State.wf, and_assoc]

/-- An admitted width has a sign bit and another (00_scope.md R5). -/
theorem two_le_xlen_of_valid {c : Config} (h : c.valid = true) : 2 ≤ c.xlen := by
  simp only [Config.valid, Bool.and_eq_true, decide_eq_true_eq, and_assoc] at h
  exact h.1

theorem inRange_wrap {c : Config} (hc : c.valid = true) (v : Int) :
    inRange c (wrap c.xlen v) = true :=
  inRange_iff.mpr (wrap_mem_range (by have := two_le_xlen_of_valid hc; omega) v)

/-! ### Each update keeps the invariant -/

theorem setReg_keeps_wf {s : State} (h : s.wf = true) (k : Nat) (v : Int) :
    (s.setReg k v).wf = true := by
  obtain ⟨hc, hregs, hprog, hdata, hpred⟩ := state_wf_iff.mp h
  obtain ⟨hlen, hall, hrest⟩ := registersWf_iff.mp hregs
  have hset : ∀ w ∈ s.regs.set k (wrap s.cfg.xlen v), inRange s.cfg w = true := by
    intro w hw
    obtain hw | rfl := List.mem_or_eq_of_mem_set hw
    · exact hall w hw
    · exact inRange_wrap hc v
  exact state_wf_iff.mpr
    ⟨hc, registersWf_iff.mpr ⟨List.length_set.trans hlen, hset, hrest⟩, hprog, hdata, hpred⟩

theorem setHi_keeps_wf {s : State} (h : s.wf = true) (v : Int) : (s.setHi v).wf = true := by
  obtain ⟨hc, hregs, hrest⟩ := state_wf_iff.mp h
  obtain ⟨hlen, hall, hpc, -, hlo⟩ := registersWf_iff.mp hregs
  exact state_wf_iff.mpr
    ⟨hc, registersWf_iff.mpr ⟨hlen, hall, hpc, inRange_wrap hc v, hlo⟩, hrest⟩

theorem setLo_keeps_wf {s : State} (h : s.wf = true) (v : Int) : (s.setLo v).wf = true := by
  obtain ⟨hc, hregs, hrest⟩ := state_wf_iff.mp h
  obtain ⟨hlen, hall, hpc, hhi, -, haddr⟩ := registersWf_iff.mp hregs
  exact state_wf_iff.mpr
    ⟨hc, registersWf_iff.mpr ⟨hlen, hall, hpc, hhi, inRange_wrap hc v, haddr⟩, hrest⟩

theorem latch_keeps_wf {s : State} (h : s.wf = true) (pred outcome : Bool) (addr : Int) :
    (s.latch pred outcome addr).wf = true := by
  obtain ⟨hc, hregs, hrest⟩ := state_wf_iff.mp h
  obtain ⟨hlen, hall, hpc, hhi, hlo, -⟩ := registersWf_iff.mp hregs
  exact state_wf_iff.mpr
    ⟨hc, registersWf_iff.mpr ⟨hlen, hall, hpc, hhi, hlo, inRange_wrap hc addr⟩, hrest⟩

theorem setWord_keeps_wf {s : State} (h : s.wf = true) (k : Nat) (v : Int) :
    (s.setWord k v).wf = true := by
  obtain ⟨hc, hregs, hprog, hdata, hpred⟩ := state_wf_iff.mp h
  obtain ⟨hmem, hlabels⟩ := dataWf_iff.mp hdata
  have hset : Memory.wf s.cfg (s.setWord k v).dmem = true := by
    rw [memory_wf_iff] at hmem ⊢
    intro w hw
    obtain hw | rfl := List.mem_or_eq_of_mem_set hw
    · exact hmem w hw
    · exact inRange_iff.mp (inRange_wrap hc v)
  have hbases : ∀ e ∈ s.dlabel, e.2 ≤ (s.setWord k v).dmem.length := by simpa using hlabels
  exact state_wf_iff.mpr ⟨hc, hregs, hprog, dataWf_iff.mpr ⟨hset, hbases⟩, hpred⟩

/-- A write of the pc within the program keeps the invariant: there it is no more than `MAX`, so that
the wrap leaves it as it is (10_state.md R26). -/
theorem setPc_keeps_wf {s : State} (h : s.wf = true) {v : Int} (h0 : 0 ≤ v)
    (hv : v ≤ s.prog.length) : (s.setPc v).wf = true := by
  obtain ⟨hc, hregs, hprog, hrest⟩ := state_wf_iff.mp h
  obtain ⟨hlen, hall, hpc, hacc⟩ := registersWf_iff.mp hregs
  obtain ⟨-, -, hmax, hlabels⟩ := programWf_iff.mp hprog
  have hmoved : (s.setPc v).pc = v := by
    have hx := two_le_xlen_of_valid hc
    have hmin : minVal s.cfg.xlen ≤ 0 := by have := pow2_pos (s.cfg.xlen - 1); unfold minVal; omega
    exact wrap_of_range (by omega) (by omega) (by omega)
  exact state_wf_iff.mpr ⟨hc, registersWf_iff.mpr ⟨hlen, hall, inRange_wrap hc v, hacc⟩,
    programWf_iff.mpr ⟨h0.trans_eq hmoved.symm, hmoved.trans_le hv, hmax, hlabels⟩, hrest⟩

/-- A trained counter stays in `[0, CTR_MAX]` (45_branch_predictor.md R244). -/
theorem trainCounter_le_ctrMax (c : Config) (counter : Nat) (outcome : Bool) :
    trainCounter c counter outcome ≤ ctrMax c := by
  unfold trainCounter clamp
  split_ifs <;> omega

theorem bhtUpdate_keeps_wf {c : Config} {b : Bht} (h : b.wf c = true) (address : Int)
    (outcome : Bool) : (bhtUpdate c b address outcome).1.wf c = true := by
  obtain ⟨hlen, hall⟩ := bht_wf_iff.mp h
  refine bht_wf_iff.mpr ⟨List.length_set.trans hlen, fun n hn => ?_⟩
  obtain hn | rfl := List.mem_or_eq_of_mem_set hn
  · exact hall n hn
  · exact trainCounter_le_ctrMax _ _ _

theorem cbpUpdate_keeps_wf {s : State} (h : s.wf = true) (address : Int) (outcome : Bool) :
    (cbpUpdate s address outcome).wf = true := by
  obtain ⟨hc, hregs, hprog, hdata, hpred⟩ := state_wf_iff.mp h
  obtain ⟨hlen, -, hall⟩ := predictorWf_iff.mp hpred
  have htables : ∀ b ∈ (cbpUpdate s address outcome).bhts, b.wf s.cfg = true := by
    intro b hb
    obtain ⟨k, hk, rfl⟩ := List.mem_iff_getElem.mp hb
    simp only [cbpUpdate_bhts, List.getElem_modify]
    split
    · exact bhtUpdate_keeps_wf (hall _ (List.getElem_mem _)) address outcome
    · exact hall _ (List.getElem_mem _)
  exact state_wf_iff.mpr ⟨hc, hregs, hprog, hdata, predictorWf_iff.mpr
    ⟨(List.length_modify _ _ _).trans hlen, Nat.mod_lt _ (by positivity), htables⟩⟩

theorem UnitWrites.keeps_wf {s t : State} (h : UnitWrites s t) (hs : s.wf = true) :
    t.wf = true := by
  induction h with
  | unchanged => exact hs
  | setReg k v _ ih => exact setReg_keeps_wf ih k v
  | setHi v _ ih => exact setHi_keeps_wf ih v
  | setLo v _ ih => exact setLo_keeps_wf ih v
  | setWord k v _ ih => exact setWord_keeps_wf ih k v
  | emit _ _ ih | drawn _ ih => exact ih

theorem branchTo_keeps_wf {s : State} (h : s.wf = true) {newPc : Int} (h0 : 0 ≤ newPc)
    (hv : newPc ≤ s.prog.length) (taken : Bool) : (branchTo s newPc taken).wf = true :=
  latch_keeps_wf (cbpUpdate_keeps_wf (setPc_keeps_wf h h0 hv) _ _) _ _ _

/-! ### Every step keeps the invariant -/

/-- A declared code label is a line of the program (10_state.md R33). -/
theorem lt_length_of_lookup_clabel {s : State} (h : s.wf = true) {name : Text} {line : Nat}
    (hl : s.clabel.lookup name = some line) : line < s.prog.length := by
  obtain ⟨-, -, hprog, -⟩ := state_wf_iff.mp h
  obtain ⟨-, -, -, hlabels, -⟩ := programWf_iff.mp hprog
  obtain ⟨before, after, hsplit, -⟩ := List.lookup_eq_some_iff.mp hl
  exact hlabels (name, line) (by simp [hsplit])

/-- A branch at a line of the program goes to a line of it or to its end (10_state.md R26). -/
theorem branchPc_in_program {s : State} (h : s.wf = true) (h0 : 0 ≤ s.pc)
    (hpc : s.pc < s.prog.length) {taken : Bool} {target : Operand} {newPc : Int}
    (hb : branchPc s taken target = .ok newPc) : 0 ≤ newPc ∧ newPc ≤ s.prog.length := by
  obtain ⟨-, name, line, -, hline, rfl⟩ | ⟨-, rfl⟩ := branchPc_ok hb
  · have := lt_length_of_lookup_clabel h hline
    omega
  · omega

/-- A line of the program, executed at its own place, keeps the invariant. -/
theorem exec_keeps_wf {i : Instr} {s t : State} (h : s.wf = true) (h0 : 0 ≤ s.pc)
    (hpc : s.pc < s.prog.length) (he : exec i s = .next t) : t.wf = true := by
  obtain ⟨u, hu, rfl⟩ | ⟨-, taken, target, newPc, -, hb, rfl⟩ := exec_next he
  · obtain ⟨hupc, huprog, -⟩ := hu.frame
    exact setPc_keeps_wf (hu.keeps_wf h) (by omega) (by rw [huprog]; omega)
  · obtain ⟨hlow, hhigh⟩ := branchPc_in_program h h0 hpc hb
    exact branchTo_keeps_wf h hlow hhigh taken

/-- Settles O41: a step leaves a halted machine as it is, or executes the line at the pc. -/
theorem everyStepKeepsTheInvariant : Obligations.EveryStepKeepsTheInvariant := by
  intro s t hs h
  obtain ⟨-, rfl⟩ | ⟨i, hfetch, he⟩ := step_next h
  · exact hs
  · obtain ⟨h0, hline⟩ := fetch_line.mp hfetch
    have hlt := (List.getElem?_eq_some_iff.mp hline).1
    exact exec_keeps_wf hs h0 (by omega) he

/-- What every step keeps holds of all a machine reaches. -/
theorem reaches_keeps {P : State → Prop} (hstep : ∀ s t, P s → step s = .next t → P t)
    {s t : State} (hr : Reaches s t) (hs : P s) : P t := by
  induction hr with
  | here => exact hs
  | step h _ ih => exact ih (hstep _ _ hs h)

theorem reaches_keeps_wf {s t : State} (hs : s.wf = true) (hr : Reaches s t) : t.wf = true :=
  reaches_keeps (P := fun s => s.wf = true) everyStepKeepsTheInvariant hr hs

theorem fetch_ne_negative {s : State} (h : 0 ≤ s.pc) : fetch s ≠ .negative := by
  unfold fetch
  rw [if_neg (by omega)]
  split
  · exact nofun
  · exact nofun

/-- The one refusal of a step, of a negative pc, is outside the invariant (log 13). -/
theorem step_not_refused {s : State} (hs : s.wf = true) (r : Refusal) : step s ≠ .refused r := by
  obtain ⟨-, -, hprog, -⟩ := state_wf_iff.mp hs
  obtain ⟨h0, -⟩ := programWf_iff.mp hprog
  unfold step
  split
  · exact nofun
  · exact exec_not_refused _ _ r
  · next hfetch => exact absurd hfetch (fetch_ne_negative h0)

/-- Settles O58: the invariant goes with every step, and within it a step is a next state or an
error. -/
theorem noWellFormedMachineIsRefused : Obligations.NoWellFormedMachineIsRefused := by
  intro s hs
  have hreach : ∀ t, Reaches s t → t.wf = true ∧ ∀ r, step t ≠ .refused r := fun t ht =>
    ⟨reaches_keeps_wf hs ht, step_not_refused (reaches_keeps_wf hs ht)⟩
  refine ⟨step_not_refused hs, hreach, fun hsafe t e ht he => ?_, fun hno t ht => ?_⟩
  · obtain ⟨u, hu⟩ := hsafe t ht
    cases he.symm.trans hu
  · cases hstep : step t with
    | next u => exact ⟨u, rfl⟩
    | fault e => exact absurd hstep (hno t e ht)
    | refused r => exact absurd hstep ((hreach t ht).2 r)

end Sys2Proof.Proofs
end

/-! ## Power-on, reset, and the data view after a load: O42, O44, O55 -/

section
namespace Sys2Proof.Proofs

open Sys2Proof Sys2Proof.Machine

/-! ### Power-on and reset -/

theorem inRange_zero (c : Config) : inRange c 0 = true := by
  have hpos := pow2_pos (c.xlen - 1)
  exact inRange_iff.mpr ⟨by unfold minVal; omega, by unfold maxVal; omega⟩

theorem bht_zero_wf (c : Config) : (Bht.zero c).wf c = true :=
  bht_wf_iff.mpr ⟨List.length_replicate, fun _ hn => (List.eq_of_mem_replicate hn).trans_le
    (Nat.zero_le _)⟩

theorem powerOn_wf {c : Config} (hc : c.valid = true) : (State.powerOn c).wf = true := by
  have hzero := inRange_zero c
  have hregs : registersWf (State.powerOn c) = true :=
    registersWf_iff.mpr ⟨List.length_replicate,
      fun v hv => (List.eq_of_mem_replicate hv).symm ▸ hzero, hzero, hzero, hzero, hzero⟩
  have hprog : programWf (State.powerOn c) = true :=
    programWf_iff.mpr ⟨le_rfl, le_rfl, (inRange_iff.mp hzero).2, nofun, le_rfl⟩
  have hdata : dataWf (State.powerOn c) = true := dataWf_iff.mpr ⟨rfl, nofun⟩
  have hpred : predictorWf (State.powerOn c) = true :=
    predictorWf_iff.mpr ⟨List.length_replicate, Nat.two_pow_pos _,
      fun b hb => (List.eq_of_mem_replicate hb).symm ▸ bht_zero_wf c⟩
  exact state_wf_iff.mpr ⟨hc, hregs, hprog, hdata, hpred⟩

theorem reference_valid : Config.reference.valid = true := by decide +kernel

/-- Settles O42: every part of the invariant holds of zeros, empty maps and fresh tables. -/
theorem powerOnMeetsTheInvariant : Obligations.PowerOnMeetsTheInvariant :=
  ⟨powerOn_wf reference_valid, fun _ => powerOn_wf⟩

theorem readReg_of_regs_zero {s : State} (h : ∀ v ∈ s.regs, v = 0) {o : Operand} {a : Int}
    (ha : readReg s o = .ok a) : a = 0 := by
  obtain ⟨name, -, ⟨-, rfl⟩ | ⟨-, k, -, rfl⟩⟩ := readReg_ok ha
  · rfl
  · rw [List.getD_eq_getElem?_getD]
    cases hk : s.regs[k]? with
    | none => rfl
    | some v => exact h v (List.mem_of_getElem? hk)

/-- A reset table has as many counters as before, all 0, and no tally (45_branch_predictor.md R245). -/
theorem bhtReset_of_wf {c : Config} {b : Bht} (h : b.wf c = true) :
    bhtReset b = ⟨List.replicate (2 ^ c.keyBits) 0, 0, 0⟩ := by
  obtain ⟨hlen, -⟩ := bht_wf_iff.mp h
  simp [bhtReset, ← hlen]

theorem resetBlock_bhts_of_wf {s : State} (h : predictorWf s = true) :
    (resetBlock s).bhts = List.replicate (2 ^ s.cfg.histBits)
      ⟨List.replicate (2 ^ s.cfg.keyBits) 0, 0, 0⟩ := by
  obtain ⟨hlen, -, hall⟩ := predictorWf_iff.mp h
  rw [resetBlock_bhts, ← hlen]
  exact List.map_eq_replicate_iff.mpr fun b hb => bhtReset_of_wf (hall b hb)

/-- Settles O44: the registers and the tables by the two facts above, every other field by the laws of
`resetBlock`. -/
theorem resetClearsTheBlock : Obligations.ResetClearsTheBlock := by
  intro s hs
  obtain ⟨-, -, -, -, hpred⟩ := state_wf_iff.mp hs
  have hread : ∀ o a, readReg (resetBlock s) o = .ok a → a = 0 := fun o a =>
    readReg_of_regs_zero (by simp)
  exact ⟨hread, resetBlock_pc s, resetBlock_hi s, resetBlock_lo s, resetBlock_dmem s,
    resetBlock_dlabel s, resetBlock_prog s, resetBlock_clabel s, resetBlock_textStart s,
    resetBlock_hist s, resetBlock_bhts_of_wf hpred, resetBlock_lastValid s, resetBlock_out s,
    resetBlock_draws s, resetBlock_inputSilent s, resetBlock_cfg s, rfl⟩

/-! ### The data view

A load declares its labels in the order of their bases, from 0 on and without a gap, so that sorting
the label map by base leaves it and the slices tile the segment. -/

/-- The entries of a label map cut a segment of `size` words in order: bases ascend from 0 and none
lies beyond the end; with no entry the segment is empty. -/
def Tiles (m : LabelMap) (size : Nat) : Prop :=
  m.Pairwise (fun e f => e.2 ≤ f.2) ∧ (∀ e ∈ m, e.2 ≤ size) ∧ (m.head?.map Prod.snd).getD size = 0

/-- The data labels of a state cut its data segment in order. -/
def DataTiled (s : State) : Prop := Tiles s.dlabel s.dmem.length

/-- A label that is new to a map is put at its end. -/
theorem put_of_not_mem {m : LabelMap} {label : Text} (index : Nat) (h : label ∉ m.map Prod.fst) :
    LabelMap.put m label index = m ++ [(label, index)] := by
  induction m with
  | nil => rfl
  | cons e rest ih =>
    obtain ⟨head, k⟩ := e
    simp only [List.map_cons, List.mem_cons, not_or] at h
    obtain ⟨hhead, hrest⟩ := h
    simp [LabelMap.put, Ne.symm hhead, ih hrest]

theorem Tiles.append {m : LabelMap} {size : Nat} (h : Tiles m size) (label : Text) (count : Nat) :
    Tiles (m ++ [(label, size)]) (size + count) := by
  obtain ⟨hsorted, hbases, hhead⟩ := h
  refine ⟨List.pairwise_append.mpr ⟨hsorted, List.pairwise_singleton _ _, ?_⟩, ?_, ?_⟩
  · simpa using fun l k he => hbases (l, k) he
  · intro e he
    obtain he | rfl := by simpa using he
    · exact (hbases e he).trans (Nat.le_add_right _ _)
    · exact Nat.le_add_right _ _
  · cases m with
    | nil => simpa using hhead
    | cons e rest => simpa using hhead

/-- An entry whose base is beyond every other's is inserted last. -/
theorem insertByBase_of_le {e : Text × Nat} {m : LabelMap} (h : ∀ f ∈ m, f.2 ≤ e.2) :
    insertByBase e m = m ++ [e] := by
  induction m with
  | nil => rfl
  | cons f rest ih =>
    obtain ⟨hf, hrest⟩ := List.forall_mem_cons.mp h
    simp [insertByBase, Nat.not_lt.mpr hf, ih hrest]

/-- A map in the order of its bases is its own sort. -/
theorem sortByBase_of_sorted {m : LabelMap} (h : m.Pairwise fun e f => e.2 ≤ f.2) :
    sortByBase m = m := by
  induction m using List.reverseRecOn with
  | nil => rfl
  | append_singleton m e ih =>
    obtain ⟨hm, -, hlast⟩ := List.pairwise_append.mp h
    have hsort : sortByBase (m ++ [e]) = insertByBase e (sortByBase m) := by simp [sortByBase]
    rw [hsort, ih hm, insertByBase_of_le fun f hf => hlast f hf e (List.mem_singleton_self e)]

/-- The slices at ascending bases make up the segment from the first base on. -/
theorem slicesOf_flatten {data : List Int} {e : Text × Nat} {rest : LabelMap}
    (h : (e :: rest).Pairwise fun e f => e.2 ≤ f.2) :
    ((slicesOf data (e :: rest)).map Prod.snd).flatten = data.drop e.2 := by
  induction rest generalizing e with
  | nil => simp [slicesOf]
  | cons f rest ih =>
    obtain ⟨hfirst, hrest⟩ := List.pairwise_cons.mp h
    have hle : e.2 ≤ f.2 := hfirst f List.mem_cons_self
    have hdrop : data.drop f.2 = (data.drop e.2).drop (f.2 - e.2) := by
      rw [List.drop_drop, Nat.add_sub_cancel' hle]
    rw [slicesOf, List.map_cons, List.flatten_cons, ih hrest, hdrop, List.take_append_drop]

/-- Where the label map tiles the segment, the slices of the data view are the segment. -/
theorem dataView_flatten {s : State} (h : DataTiled s) :
    ((dataView s).map Prod.snd).flatten = s.dmem := by
  obtain ⟨hsorted, -, hhead⟩ := h
  unfold dataView
  rw [sortByBase_of_sorted hsorted]
  cases hm : s.dlabel with
  | nil => simpa [hm, slicesOf, eq_comm] using hhead
  | cons e rest =>
    have he : e.2 = 0 := by simpa [hm] using hhead
    rw [slicesOf_flatten (hm ▸ hsorted), he, List.drop_zero]

/-! ### The declarations of a loaded program -/

/-- `load`'s label check passes exactly for labels that differ (46_cpu.md R271). -/
theorem firstRepeated_none {seen labels : List Text} (h : firstRepeated seen labels = none) :
    labels.Nodup ∧ ∀ l ∈ labels, l ∉ seen := by
  induction labels generalizing seen with
  | nil => simp
  | cons l rest ih =>
    unfold firstRepeated at h
    split at h
    · cases h
    · next hl =>
      obtain ⟨hnodup, hseen⟩ := ih h
      have hl : l ∉ seen := by simpa using hl
      refine ⟨List.nodup_cons.mpr ⟨fun hmem => hseen l hmem List.mem_cons_self, hnodup⟩, ?_⟩
      exact List.forall_mem_cons.mpr
        ⟨hl, fun l' hl' hmem => hseen l' hl' (List.mem_cons_of_mem _ hmem)⟩

/-- A data declaration's label is its line's label (30_encoding.md R90). -/
theorem lineLabel_of_dataDecl {i : Instr} {d : Text × List Int} (h : i.dataDecl = some d) :
    i.lineLabel = some d.1 := by
  unfold Instr.dataDecl at h
  split at h
  · cases h; rfl
  · cases h; rfl
  · cases h

/-- The labels of a program's declarations are among its labels, in the same order. -/
theorem dataDecl_labels_sublist (program : List Instr) :
    ((program.filterMap Instr.dataDecl).map Prod.fst).Sublist (programLabels program) := by
  induction program with
  | nil => exact .refl _
  | cons i rest ih =>
    unfold programLabels at ih ⊢
    cases hd : i.dataDecl with
    | some d => simpa [hd, lineLabel_of_dataDecl hd] using ih
    | none =>
      cases hl : i.lineLabel with
      | none => simpa [hd, hl] using ih
      | some l => simpa [hd, hl] using ih.cons l

/-- Declarations under different new labels leave a label map that tiles the segment. -/
theorem declarations_keep_dataTiled {decls : List (Text × List Int)} {s : State}
    (h : DataTiled s) (hnodup : (decls.map Prod.fst).Nodup)
    (hnew : ∀ l ∈ decls.map Prod.fst, l ∉ s.dlabel.map Prod.fst) :
    DataTiled (decls.foldl (fun t d => (setDataByLabel t d.1 d.2).1) s) := by
  induction decls generalizing s with
  | nil => exact h
  | cons d rest ih =>
    obtain ⟨hd, hnodup⟩ := List.nodup_cons.mp hnodup
    obtain ⟨hdnew, hnew⟩ := List.forall_mem_cons.mp hnew
    have hlabels : (appendData s d.1 d.2).dlabel = s.dlabel ++ [(d.1, s.dmem.length)] :=
      put_of_not_mem _ hdnew
    refine ih (s := appendData s d.1 d.2) ?_ hnodup fun l hl => ?_
    · rw [DataTiled, hlabels, appendData_dmem, List.length_append, List.length_map]
      exact h.append d.1 d.2.length
    · have hne : l ≠ d.1 := fun heq => hd (heq ▸ hl)
      rw [hlabels]
      simpa [hne] using hnew l hl

/-- Settles O55: a reset block's empty label map tiles its empty segment, the declarations of a load
keep that, and the view of such a segment is the segment. -/
theorem dataViewSlicesMakeUpTheSegment : Obligations.DataViewSlicesMakeUpTheSegment := by
  intro s t program h
  obtain ⟨m, -, -, -, hlabels, rfl⟩ := load_next h
  obtain ⟨hnodup, -⟩ := firstRepeated_none hlabels
  apply dataView_flatten
  exact declarations_keep_dataTiled (s := { resetBlock s with prog := program, textStart := m + 1 })
    ⟨.nil, nofun, rfl⟩ (hnodup.sublist (dataDecl_labels_sublist program)) (fun _ _ => nofun)

end Sys2Proof.Proofs
end

/-! ## The data segment and what a line writes: O10, O34, O35 -/

section
namespace Sys2Proof.Proofs

open Sys2Proof Sys2Proof.Machine

/-! ### Access to the data segment (20_memory.md R63) -/

theorem inData_iff {m : List Int} {addr : Int} :
    inData m addr = true ↔ 0 ≤ addr ∧ addr < m.length := by
  simp [inData]

theorem memRead_of_inData {s : State} {addr : Int} (h : inData s.dmem addr = true) :
    memRead s addr = .ok (s.dmem.getD addr.toNat 0) := if_pos h

theorem memWrite_of_inData {s : State} {addr : Int} (v : Int) (h : inData s.dmem addr = true) :
    memWrite s addr v = .ok (s.setWord addr.toNat v) := if_pos h

theorem memRead_of_not_inData {s : State} {addr : Int} (h : ¬ inData s.dmem addr = true) :
    memRead s addr = .error (.addressOutOfRange addr) := if_neg h

theorem memWrite_of_not_inData {s : State} {addr : Int} (v : Int)
    (h : ¬ inData s.dmem addr = true) :
    memWrite s addr v = .error (.addressOutOfRange addr) := if_neg h

/-- Overwriting a word keeps the segment's length, hence the indices that lie in it. -/
@[simp] theorem inData_set (m : List Int) (k : Nat) (w addr : Int) :
    inData (m.set k w) addr = inData m addr := by
  simp [inData]

theorem memRead_setWord_same {s : State} {addr : Int} (v : Int)
    (h : inData s.dmem addr = true) :
    memRead (s.setWord addr.toNat v) addr = .ok (wrap s.cfg.xlen v) := by
  obtain ⟨h0, hlt⟩ := inData_iff.mp h
  have hk : addr.toNat < s.dmem.length := by omega
  rw [memRead_of_inData (by simpa using h), setWord_dmem]
  simp [List.getElem?_set_self hk]

theorem memRead_setWord_ne {s : State} {addr x : Int} (v : Int) (h0 : 0 ≤ addr) (hx : x ≠ addr) :
    memRead (s.setWord addr.toNat v) x = memRead s x := by
  by_cases h : inData s.dmem x = true
  · obtain ⟨hx0, -⟩ := inData_iff.mp h
    have hk : addr.toNat ≠ x.toNat := by omega
    rw [memRead_of_inData h, memRead_of_inData (by simpa using h), setWord_dmem]
    simp [List.getElem?_set_ne hk]
  · rw [memRead_of_not_inData h, memRead_of_not_inData (by simpa using h)]

/-- Settles O10: outside the segment both accesses take their error branch; inside it, the two laws of
a read after `setWord`. -/
theorem dataAccessIsBoundedAndFramed : Obligations.DataAccessIsBoundedAndFramed := by
  intro s addr v
  refine ⟨fun hout => ?_, fun h0 hlt => ?_⟩
  · have h : ¬ inData s.dmem addr = true := by rw [inData_iff]; omega
    exact ⟨memRead_of_not_inData h, memWrite_of_not_inData v h⟩
  · have h : inData s.dmem addr = true := inData_iff.mpr ⟨h0, hlt⟩
    have hk : addr.toNat < s.dmem.length := by omega
    refine ⟨⟨s.dmem[addr.toNat], List.getElem?_eq_getElem hk, ?_⟩,
      s.setWord addr.toNat v, memWrite_of_inData v h, List.length_set, memRead_setWord_same v h,
      fun x => memRead_setWord_ne v h0, rfl⟩
    rw [memRead_of_inData h, List.getD_eq_getElem _ _ hk]

/-! ### What no line writes -/

/-- A unit's writes leave the label maps, the start index, the segment's length and the model's own
fields that no instruction touches. -/
theorem UnitWrites.static_frame {s t : State} (h : UnitWrites s t) :
    t.clabel = s.clabel ∧ t.dlabel = s.dlabel ∧ t.textStart = s.textStart ∧
      t.dmem.length = s.dmem.length ∧ t.latchDraws = s.latchDraws ∧
      t.inputSilent = s.inputSilent := by
  induction h with
  | unchanged => exact ⟨rfl, rfl, rfl, rfl, rfl, rfl⟩
  | setWord k v _ ih => simpa using ih
  | setReg _ _ _ ih | setHi _ _ ih | setLo _ _ ih | emit _ _ ih | drawn _ ih => exact ih

/-- Settles O34: neither a unit's writes and the advance nor a branch step touch these fields, and a
store keeps the segment's length. -/
theorem noInstructionChangesTheProgram : Obligations.NoInstructionChangesTheProgram := by
  intro i s t h
  obtain ⟨u, hu, rfl⟩ | ⟨-, taken, target, newPc, -, -, rfl⟩ := exec_next h
  · obtain ⟨-, hprog, hcfg⟩ := hu.frame
    obtain ⟨hclabel, hdlabel, hstart, hlength, hlatch, hsilent⟩ := hu.static_frame
    exact ⟨hprog, hclabel, hdlabel, hstart, hlength, hcfg, hlatch, hsilent⟩
  · exact ⟨rfl, rfl, rfl, rfl, rfl, rfl, rfl, rfl⟩

/-! ### Which line writes what

`UnitWrites` says what units can write; `LineWrites` says which line makes which of these writes, by
its op id (30_encoding.md R104). `exec_lineWrites` splits the dispatch once. -/

/-- The states that line `i`'s unit can make of `s`, before the pc's advance. -/
inductive LineWrites (i : Instr) (s : State) : State → Prop where
  | unchanged : LineWrites i s s
  /-- A result into the register the first operand names (41_alu.md R150, 42_memory_unit.md R190). -/
  | result {o : Operand} {v : Int} {u : State} (ho : i.operands.head? = some o)
      (hw : writeReg s o v = .ok u) : LineWrites i s u
  /-- `mult` (41_alu.md R153). -/
  | product (high low : Int) (hop : i.operation?.map Prod.fst = some 3) :
      LineWrites i s ((s.setHi high).setLo low)
  /-- `sw` (42_memory_unit.md R192). -/
  | store (k : Nat) (v : Int) (hop : i.operation?.map Prod.fst = some 22) :
      LineWrites i s (s.setWord k v)
  /-- `mthi` (42_memory_unit.md R198). -/
  | toHi (v : Int) (hop : i.operation?.map Prod.fst = some 28) : LineWrites i s (s.setHi v)
  /-- `mtlo` (42_memory_unit.md R199). -/
  | toLo (v : Int) (hop : i.operation?.map Prod.fst = some 29) : LineWrites i s (s.setLo v)
  /-- The print operations (44_syscall_unit.md R231, R232). -/
  | print (e : Event)
      (hop : i.operation?.map Prod.fst = some 38 ∨ i.operation?.map Prod.fst = some 39) :
      LineWrites i s (s.emit e)
  /-- The reads (44_syscall_unit.md R233, R234). -/
  | input {v : Int} {u : State}
      (hop : i.operation?.map Prod.fst = some 40 ∨ i.operation?.map Prod.fst = some 41)
      (hw : writeReg s (.sym s.cfg.sysResReg) v = .ok u) : LineWrites i s u.drawn

theorem alu3_lineWrites {i : Instr} {f : Int → Int → Except Fault Int} {ops : List Operand}
    {s u : State} (hops : i.operands = ops) (h : alu3 f ops s = .ok u) : LineWrites i s u := by
  obtain ⟨rd, rs, rt, a, b, v, rfl, -, -, -, hw⟩ := alu3_ok h
  exact .result (by rw [hops]; rfl) hw

theorem aluImm_lineWrites {i : Instr} {f : Int → Int → Int} {ops : List Operand} {s u : State}
    (hops : i.operands = ops) (h : aluImm f ops s = .ok u) : LineWrites i s u := by
  obtain ⟨rd, rs, k, a, rfl, -, hw⟩ := aluImm_ok h
  exact .result (by rw [hops]; rfl) hw

theorem unary_lineWrites {i : Instr} {f : Int → Int} {ops : List Operand} {s u : State}
    (hops : i.operands = ops) (h : unary f ops s = .ok u) : LineWrites i s u := by
  obtain ⟨rd, rs, a, rfl, -, hw⟩ := unary_ok h
  exact .result (by rw [hops]; rfl) hw

theorem printArg_lineWrites {i : Instr} {event : Int → Event} {ops : List Operand} {s u : State}
    (hop : i.operation?.map Prod.fst = some 38 ∨ i.operation?.map Prod.fst = some 39)
    (h : printArg event ops s = .ok u) : LineWrites i s u := by
  obtain ⟨v, -, -, rfl⟩ := printArg_ok h
  exact .print _ hop

theorem readInput_lineWrites {i : Instr} {answer : Nat → Int} {ops : List Operand} {s u : State}
    (hop : i.operation?.map Prod.fst = some 40 ∨ i.operation?.map Prod.fst = some 41)
    (h : readInput answer ops s = .ok u) : LineWrites i s u := by
  obtain ⟨u', -, -, hw, rfl⟩ := readInput_ok h
  exact .input hop hw

/-- A completed line outside the Jump Unit is its unit's write, then the advance (46_cpu.md R278). -/
theorem complete_lineWrites {i : Instr} {s t : State} {r : Except Fault State}
    (h : complete r = .next t) (hr : ∀ u, r = .ok u → LineWrites i s u) :
    ∃ u, LineWrites i s u ∧ t = u.advance := by
  obtain ⟨u, hu, rfl⟩ := complete_next.mp h
  exact ⟨u, hr u hu, rfl⟩

theorem branchStep_branchTo {x : Except Fault (Bool × Operand)} {s t : State}
    (h : branchStep x s = .next t) : ∃ newPc taken, t = branchTo s newPc taken := by
  obtain ⟨taken, -, newPc, -, -, rfl⟩ := branchStep_next h
  exact ⟨newPc, taken, rfl⟩

/-- A completed line makes the write of its own op id and advances, or is a branch step. -/
theorem exec_lineWrites {i : Instr} {s t : State} (h : exec i s = .next t) :
    (∃ u, LineWrites i s u ∧ t = u.advance) ∨
    (unitOfLine i = some .jump ∧ ∃ newPc taken, t = branchTo s newPc taken) := by
  cases i with
  | sectionLine _ | spaceLine _ _ | wordLine _ _ | labelLine _ =>
    refine .inl (complete_lineWrites (r := .ok s) h fun u hu => ?_)
    cases hu
    exact .unchanged
  | nop l ops =>
    refine .inl (complete_lineWrites h fun u hu => ?_)
    obtain ⟨_, -, hu⟩ := bind_ok.mp hu
    cases hu
    exact .unchanged
  | add l ops | sub l ops | div l ops | and l ops | or l ops | xor l ops | slt l ops | sllv l ops
  | srlv l ops | srav l ops =>
    exact .inl (complete_lineWrites h fun _ => alu3_lineWrites rfl)
  | addi l ops | andi l ops | ori l ops | xori l ops | slti l ops | sll l ops | srl l ops
  | sra l ops =>
    exact .inl (complete_lineWrites h fun _ => aluImm_lineWrites rfl)
  | not l ops | move l ops => exact .inl (complete_lineWrites h fun _ => unary_lineWrites rfl)
  | mult l ops =>
    refine .inl (complete_lineWrites h fun u hu => ?_)
    simp only [bind_ok] at hu
    obtain ⟨_, -, _, -, _, -, hu⟩ := hu
    cases hu
    exact .product _ _ rfl
  | lw l ops =>
    refine .inl (complete_lineWrites h fun u hu => ?_)
    simp only [bind_ok, formatFM_ok] at hu
    obtain ⟨_, rfl, _, -, _, -, hw⟩ := hu
    exact .result rfl hw
  | sw l ops =>
    refine .inl (complete_lineWrites h fun u hu => ?_)
    simp only [bind_ok] at hu
    obtain ⟨_, -, _, -, _, -, hw⟩ := hu
    obtain ⟨-, -, rfl⟩ := memWrite_ok hw
    exact .store _ _ rfl
  | la l ops =>
    refine .inl (complete_lineWrites h fun u hu => ?_)
    simp only [bind_ok, format2_ok] at hu
    obtain ⟨_, rfl, _, -, hw⟩ := hu
    exact .result rfl hw
  | li l ops | lui l ops =>
    refine .inl (complete_lineWrites h fun u hu => ?_)
    simp only [bind_ok, formatFRI_ok] at hu
    obtain ⟨_, rfl, hw⟩ := hu
    exact .result rfl hw
  | mfhi l ops | mflo l ops =>
    refine .inl (complete_lineWrites h fun u hu => ?_)
    simp only [bind_ok, format1_ok] at hu
    obtain ⟨_, rfl, hw⟩ := hu
    exact .result rfl hw
  | mthi l ops =>
    refine .inl (complete_lineWrites h fun u hu => ?_)
    simp only [bind_ok] at hu
    obtain ⟨_, -, _, -, hu⟩ := hu
    cases hu
    exact .toHi _ rfl
  | mtlo l ops =>
    refine .inl (complete_lineWrites h fun u hu => ?_)
    simp only [bind_ok] at hu
    obtain ⟨_, -, _, -, hu⟩ := hu
    cases hu
    exact .toLo _ rfl
  | printInt l ops => exact .inl (complete_lineWrites h fun _ => printArg_lineWrites (.inl rfl))
  | printChar l ops => exact .inl (complete_lineWrites h fun _ => printArg_lineWrites (.inr rfl))
  | readInt l ops => exact .inl (complete_lineWrites h fun _ => readInput_lineWrites (.inl rfl))
  | readChar l ops => exact .inl (complete_lineWrites h fun _ => readInput_lineWrites (.inr rfl))
  | beq l ops | bne l ops | bgt l ops | bge l ops | blt l ops | ble l ops | j l ops =>
    exact .inr ⟨rfl, branchStep_branchTo h⟩
  | exit l ops =>
    obtain ⟨e, he⟩ := execExit_raises ops s
    cases he.symm.trans h
  | unknownOp l opcode ops => cases h

/-- A register write changes the list of general registers alone (10_state.md R22, R23). -/
theorem writeReg_regs_only {s u : State} {o : Operand} {v : Int} (h : writeReg s o v = .ok u) :
    ∃ regs, u = { s with regs := regs } := by
  obtain ⟨name, -, ⟨-, rfl⟩ | ⟨-, k, -, rfl⟩⟩ := writeReg_ok h
  · exact ⟨_, rfl⟩
  · exact ⟨_, rfl⟩

/-- Settles O35: each constructor of `LineWrites` writes its own state under its own op ids, and a
branch step the predictor and the latches alone. -/
theorem eachStateHasItsOwnWriters : Obligations.EachStateHasItsOwnWriters := by
  intro i s t h
  obtain ⟨u, hu, rfl⟩ | ⟨hjump, newPc, taken, rfl⟩ := exec_lineWrites h
  · cases hu with
    | unchanged => simp
    | result _ hw =>
      obtain ⟨regs, rfl⟩ := writeReg_regs_only hw
      simp
    | product _ _ hop | store _ _ hop | toHi _ hop | toLo _ hop => simp [hop]
    | print _ hop => obtain hop | hop := hop <;> simp [hop]
    | input hop hw =>
      obtain ⟨regs, rfl⟩ := writeReg_regs_only hw
      obtain hop | hop := hop <;> simp [hop]
  · exact ⟨fun _ => rfl, fun _ _ => rfl, fun _ _ => rfl, fun _ _ => rfl, fun _ _ => rfl,
      fun hnot => absurd hjump hnot⟩

end Sys2Proof.Proofs
end

/-! ## Case folding and the lexical classes: O4 -/

section
namespace Sys2Proof.Proofs

open Sys2Proof Sys2Proof.Machine

/-! ### Case folding of one character (30_encoding.md R102) -/

theorem charBetween_iff {lo hi c : Char} :
    charBetween lo hi c = true ↔ lo.toNat ≤ c.toNat ∧ c.toNat ≤ hi.toNat := by
  simp [charBetween]

theorem isUpper_iff {c : Char} :
    charBetween 'A' 'Z' c = true ↔ 65 ≤ c.toNat ∧ c.toNat ≤ 90 := charBetween_iff

/-- Folding adds 32 to the codes of `A` to `Z` and changes no other. -/
theorem toNat_lowerChar (c : Char) :
    (lowerChar c).toNat = if 65 ≤ c.toNat ∧ c.toNat ≤ 90 then c.toNat + 32 else c.toNat := by
  by_cases h : 65 ≤ c.toNat ∧ c.toNat ≤ 90
  · have hvalid : (c.toNat + 32).isValidChar := .inl (by omega)
    rw [if_pos h, lowerChar, if_pos (isUpper_iff.mpr h), Char.toNat_ofNat, if_pos hvalid]
  · rw [if_neg h, lowerChar, if_neg (mt isUpper_iff.mp h)]

@[simp] theorem isLetter_lowerChar (c : Char) : isLetter (lowerChar c) = isLetter c := by
  rw [Bool.eq_iff_iff]
  simp only [isLetter, Bool.or_eq_true, charBetween_iff, toNat_lowerChar, Char.reduceToNat]
  split <;> omega

@[simp] theorem isDigit_lowerChar (c : Char) : isDigit (lowerChar c) = isDigit c := by
  rw [Bool.eq_iff_iff]
  simp only [isDigit, charBetween_iff, toNat_lowerChar, Char.reduceToNat]
  split <;> omega

/-- Folding makes or removes no character but letters. -/
theorem lowerChar_beq {d : Char} (hd : isLetter d = false) (c : Char) :
    (lowerChar c == d) = (c == d) := by
  by_cases h : 65 ≤ c.toNat ∧ c.toNat ≤ 90
  · have hc : isLetter c = true := by simp [isLetter, charBetween, h]
    have hlower : lowerChar c ≠ d := fun heq => by simp [← heq, hc] at hd
    have hsame : c ≠ d := fun heq => by simp [← heq, hc] at hd
    rw [beq_false_of_ne hlower, beq_false_of_ne hsame]
  · rw [lowerChar, if_neg (mt isUpper_iff.mp h)]

@[simp] theorem lowerChar_lowerChar (c : Char) : lowerChar (lowerChar c) = lowerChar c := by
  rw [← Char.toNat_inj, toNat_lowerChar, toNat_lowerChar]
  split_ifs <;> omega

@[simp] theorem isWordChar_lowerChar (c : Char) : isWordChar (lowerChar c) = isWordChar c := by
  simp [isWordChar, lowerChar_beq (d := '_') rfl]

@[simp] theorem isBlank_lowerChar (c : Char) : isBlank (lowerChar c) = isBlank c := by
  simp [isBlank, lowerChar_beq (d := ' ') rfl, lowerChar_beq (d := '\t') rfl]

@[simp] theorem isSep_lowerChar (c : Char) : isSep (lowerChar c) = isSep c := by
  simp [isSep, lowerChar_beq (d := ',') rfl]

@[simp] theorem isTokChar_lowerChar (c : Char) : isTokChar (lowerChar c) = isTokChar c := by
  simp [isTokChar, lowerChar_beq (d := ':') rfl, lowerChar_beq (d := '(') rfl,
    lowerChar_beq (d := ')') rfl]

theorem lowerChar_of_isDigit {c : Char} (h : isDigit c = true) : lowerChar c = c := by
  have hrange := charBetween_iff.mp h
  simp only [Char.reduceToNat] at hrange
  rw [← Char.toNat_inj, toNat_lowerChar, if_neg (by omega)]

/-! ### Case folding of a text -/

@[simp] theorem lower_nil : lower [] = [] := rfl

@[simp] theorem lower_cons (c : Char) (t : Text) : lower (c :: t) = lowerChar c :: lower t := rfl

@[simp] theorem lower_append (t u : Text) : lower (t ++ u) = lower t ++ lower u := List.map_append

@[simp] theorem lower_lower (t : Text) : lower (lower t) = lower t := by simp [lower]

@[simp] theorem isEmpty_lower (t : Text) : (lower t).isEmpty = t.isEmpty := by simp [lower]

@[simp] theorem lower_eq_nil {t : Text} : lower t = [] ↔ t = [] := List.map_eq_nil_iff

theorem take_lower (k : Nat) (t : Text) : (lower t).take k = lower (t.take k) :=
  List.map_take.symm

theorem drop_lower (k : Nat) (t : Text) : (lower t).drop k = lower (t.drop k) :=
  List.map_drop.symm

theorem reverse_lower (t : Text) : (lower t).reverse = lower t.reverse := List.map_reverse.symm

/-- Only a text's own letters fold to anything else. -/
theorem lower_eq_singleton {d : Char} (hd : isLetter d = false) (t : Text) :
    lower t = [d] ↔ t = [d] := by
  cases t with
  | nil => simp
  | cons c cs =>
    have hc : lowerChar c = d ↔ c = d := by simpa using congrArg (· = true) (lowerChar_beq hd c)
    simp [hc]

/-- A class of characters that folding respects. -/
def CaseBlind (p : Char → Bool) : Prop := ∀ c, p (lowerChar c) = p c

section CaseBlind

variable {p : Char → Bool} (h : CaseBlind p) (t : Text)
include h

theorem CaseBlind.comp : p ∘ lowerChar = p := funext h

theorem CaseBlind.all : (lower t).all p = t.all p := by
  simp [lower, List.all_map, CaseBlind.comp h]

theorem CaseBlind.takeWhile : (lower t).takeWhile p = lower (t.takeWhile p) := by
  simp [lower, List.takeWhile_map, CaseBlind.comp h]

theorem CaseBlind.dropWhile : (lower t).dropWhile p = lower (t.dropWhile p) := by
  simp [lower, List.dropWhile_map, CaseBlind.comp h]

end CaseBlind

/-! ### The lexical classes do not see letter case (30_encoding.md R93) -/

@[simp] theorem isIdent_lower (t : Text) : isIdent (lower t) = isIdent t := by
  cases t with
  | nil => rfl
  | cons c cs =>
    simp [isIdent, CaseBlind.all isWordChar_lowerChar, lowerChar_beq (d := '_') rfl]

@[simp] theorem isOpc_lower (t : Text) : isOpc (lower t) = isOpc t := by
  cases t with
  | nil => rfl
  | cons c cs => simp [isOpc, CaseBlind.all isWordChar_lowerChar]

@[simp] theorem isNatText_lower (t : Text) : isNatText (lower t) = isNatText t := by
  simp [isNatText, CaseBlind.all isDigit_lowerChar]

theorem isIntText_cons (c : Char) (cs : Text) : isIntText (c :: cs) =
    if c == '+' || c == '-' then isNatText cs else isNatText (c :: cs) := rfl

@[simp] theorem isIntText_lower (t : Text) : isIntText (lower t) = isIntText t := by
  cases t with
  | nil => rfl
  | cons c cs =>
    rw [lower_cons, isIntText_cons, isIntText_cons, ← lower_cons, isNatText_lower, isNatText_lower,
      lowerChar_beq (d := '+') rfl, lowerChar_beq (d := '-') rfl]

@[simp] theorem isTok_lower (t : Text) : isTok (lower t) = isTok t := by
  simp [isTok, CaseBlind.all isTokChar_lowerChar]

/-- A text of digits has no letter to fold. -/
theorem lower_of_all_isDigit {t : Text} (h : t.all isDigit = true) : lower t = t :=
  (List.map_congr_left fun c hc => lowerChar_of_isDigit (List.all_eq_true.mp h c hc)).trans
    (List.map_id t)

theorem lower_of_isNatText {t : Text} (h : isNatText t = true) : lower t = t := by
  simp only [isNatText, Bool.and_eq_true] at h
  exact lower_of_all_isDigit h.2

/-- An integer is a number, or a sign before one. -/
theorem isIntText_cases {t : Text} (h : isIntText t = true) :
    isNatText t = true ∨ ∃ sign ds, t = sign :: ds ∧ (sign = '+' ∨ sign = '-') ∧
      isNatText ds = true := by
  cases t with
  | nil => cases h
  | cons c cs =>
    rw [isIntText_cons] at h
    split at h
    · next hsign => exact .inr ⟨c, cs, rfl, by simpa using hsign, h⟩
    · exact .inl h

theorem lower_of_isIntText {t : Text} (h : isIntText t = true) : lower t = t := by
  obtain hnat | ⟨sign, ds, rfl, hsign, hnat⟩ := isIntText_cases h
  · exact lower_of_isNatText hnat
  · obtain rfl | rfl := hsign
    · exact congrArg _ (lower_of_isNatText hnat)
    · exact congrArg _ (lower_of_isNatText hnat)

@[simp] theorem classify_lower (t : Text) : classify (lower t) = classify t := by
  unfold classify
  rw [isIntText_lower, lower_lower]
  split
  · next h => rw [lower_of_isIntText h]
  · rfl

/-! ### The readers commute with folding -/

theorem trimBlanks_lower (t : Text) : trimBlanks (lower t) = lower (trimBlanks t) := by
  simp only [trimBlanks, CaseBlind.dropWhile isBlank_lowerChar, reverse_lower]

theorem takeLabel_lower (t : Text) :
    takeLabel (lower t) = (takeLabel t).map (Prod.map lower lower) := by
  unfold takeLabel
  rw [CaseBlind.dropWhile isWordChar_lowerChar, CaseBlind.takeWhile isWordChar_lowerChar]
  cases t.dropWhile isWordChar with
  | nil => rfl
  | cons c rest =>
    by_cases hc : c = ':'
    · subst hc
      by_cases hid : isIdent (t.takeWhile isWordChar) = true
      · simp [hid]; rfl
      · simp [hid]; rfl
    · have hl : lowerChar c ≠ ':' := by
        simpa [hc] using lowerChar_beq (d := ':') rfl c
      simp [hc, hl]

theorem takeWs_lower (t : Text) : takeWs (lower t) = (takeWs t).map lower := by
  cases t with
  | nil => rfl
  | cons c cs =>
    by_cases hc : isBlank c = true
    · simp [takeWs, hc, CaseBlind.dropWhile isBlank_lowerChar]
    · simp [takeWs, hc]

theorem takeKeyword_lower (keyword t : Text) :
    takeKeyword keyword (lower t) = (takeKeyword keyword t).map lower := by
  unfold takeKeyword
  rw [take_lower, lower_lower, drop_lower]
  split <;> rfl

theorem wordsFrom_lower (t current : Text) :
    wordsFrom (lower t) (lower current) = (wordsFrom t current).map lower := by
  induction t generalizing current with
  | nil => by_cases h : current.isEmpty = true <;> simp [wordsFrom, h, reverse_lower]
  | cons c cs ih =>
    have hnil := ih []
    have hcons := ih (c :: current)
    simp only [lower_nil, lower_cons] at hnil hcons
    by_cases hc : isSep c = true
    · by_cases h : current.isEmpty = true <;> simp [wordsFrom, hc, h, hnil, reverse_lower]
    · simp [wordsFrom, hc, hcons]

theorem sepList_lower (t : Text) : sepList (lower t) = (sepList t).map (List.map lower) := by
  unfold sepList
  have hwords : wordsFrom (lower t) [] = (wordsFrom t []).map lower := wordsFrom_lower t []
  rw [lower, List.head?_map, List.getLast?_map, ← lower, hwords]
  cases t.head? with
  | none => rfl
  | some c =>
    cases t.getLast? with
    | none => rfl
    | some d => 
      by_cases h : (isSep c || isSep d) = true
      · simp [h]
      · simp [h]

/-! ### The recognizers do not see letter case -/

theorem recognizeSection_lower (line : Text) :
    recognizeSection (lower line) = recognizeSection line := by
  cases line with
  | nil => rfl
  | cons c name =>
    by_cases hc : c = '.'
    · subst hc
      have hdot : lowerChar '.' = '.' := rfl
      simp [recognizeSection, hdot]
    · have hl : lowerChar c ≠ '.' := by simpa [hc] using lowerChar_beq (d := '.') rfl c
      simp [recognizeSection, hc, hl]

/-- What a data line holds after its keyword: `ows keyword ws` is read (30_encoding.md R96, R97). -/
def afterKeyword (keyword t : Text) : Option Text :=
  (takeKeyword keyword (t.dropWhile isBlank)).bind takeWs

theorem afterKeyword_lower (keyword t : Text) :
    afterKeyword keyword (lower t) = (afterKeyword keyword t).map lower := by
  unfold afterKeyword
  rw [CaseBlind.dropWhile isBlank_lowerChar, takeKeyword_lower]
  cases takeKeyword keyword (t.dropWhile isBlank) with
  | none => rfl
  | some rest => exact takeWs_lower rest

theorem recognizeSpace_eq (line : Text) : recognizeSpace line =
    (takeLabel line).bind fun p => (afterKeyword (text ".space") p.2).bind fun count =>
      if isNatText count then some (.spaceLine (lower p.1) (natValue count)) else none := rfl

theorem recognizeWord_eq (line : Text) : recognizeWord line =
    (takeLabel line).bind fun p => ((afterKeyword (text ".word") p.2).bind sepList).bind
      fun values =>
        if values.all isIntText then some (.wordLine (lower p.1) (values.map intValue))
        else none := rfl

theorem recognizeSpace_lower (line : Text) : recognizeSpace (lower line) = recognizeSpace line := by
  rw [recognizeSpace_eq, recognizeSpace_eq, takeLabel_lower]
  cases takeLabel line with
  | none => rfl
  | some p =>
    simp only [Option.map_some, Option.bind_some, Prod.map, lower_lower, afterKeyword_lower]
    cases afterKeyword (text ".space") p.2 with
    | none => rfl
    | some count =>
      by_cases h : isNatText count = true
      · simp [lower_of_isNatText h]
      · simp [h]

theorem recognizeWord_lower (line : Text) : recognizeWord (lower line) = recognizeWord line := by
  rw [recognizeWord_eq, recognizeWord_eq, takeLabel_lower]
  cases takeLabel line with
  | none => rfl
  | some p =>
    simp only [Option.map_some, Option.bind_some, Prod.map, lower_lower, afterKeyword_lower]
    cases afterKeyword (text ".word") p.2 with
    | none => rfl
    | some rest =>
      simp only [Option.map_some, Option.bind_some, sepList_lower]
      cases sepList rest with
      | none => rfl
      | some values =>
        have hblind : (values.map lower).all isIntText = values.all isIntText := by
          simp [List.all_map, Function.comp_def]
        by_cases h : values.all isIntText = true
        · have hsame : values.map lower = values :=
            (List.map_congr_left fun t ht => lower_of_isIntText (List.all_eq_true.mp h t ht)).trans
              (List.map_id values)
          simp [hsame]
        · simp only [Option.map_some, Option.bind_some, hblind, h]
          rfl

theorem recognizeLabel_lower (line : Text) : recognizeLabel (lower line) = recognizeLabel line := by
  unfold recognizeLabel
  rw [takeLabel_lower]
  cases takeLabel line with
  | none => rfl
  | some p => simp

theorem offsetBase_lower (t : Text) :
    offsetBase (lower t) = (offsetBase t).map (Prod.map id lower) := by
  unfold offsetBase
  simp only [CaseBlind.dropWhile isTokChar_lowerChar, CaseBlind.takeWhile isTokChar_lowerChar]
  cases t.dropWhile isTokChar with
  | nil => rfl
  | cons c inner =>
    by_cases hc : c = '('
    · subst hc
      have hparen : lowerChar '(' = '(' := rfl
      have hclose : ∀ u : Text, (lower u == [')']) = (u == [')']) := fun u => by
        rw [Bool.eq_iff_iff, beq_iff_eq, beq_iff_eq, lower_eq_singleton rfl]
      simp only [lower_cons, hparen, CaseBlind.dropWhile isTokChar_lowerChar,
        CaseBlind.dropWhile isBlank_lowerChar, CaseBlind.takeWhile isTokChar_lowerChar, hclose,
        isEmpty_lower, isIntText_lower, isTok_lower]
      split
      · next h =>
        have hoffset : lower (t.takeWhile isTokChar) = t.takeWhile isTokChar := by
          simp only [Bool.and_eq_true, Bool.or_eq_true, List.isEmpty_iff] at h
          obtain ⟨⟨hnil | hint, -⟩, -⟩ := h
          · rw [hnil]; rfl
          · exact lower_of_isIntText hint
        simp [hoffset]
      · rfl
    · have hl : lowerChar c ≠ '(' := by simpa [hc] using lowerChar_beq (d := '(') rfl c
      simp [hc, hl]

theorem recognizeBaseOffset_lower (mnemonics : List Text) (line : Text) :
    recognizeBaseOffset mnemonics (lower line) = recognizeBaseOffset mnemonics line := by
  unfold recognizeBaseOffset
  rw [CaseBlind.dropWhile isWordChar_lowerChar, CaseBlind.takeWhile isWordChar_lowerChar,
    takeWs_lower]
  cases takeWs (line.dropWhile isWordChar) with
  | none => simp
  | some rest =>
    have hsep : ∀ t : Text, (lower t).head?.any isSep = t.head?.any isSep := fun t => by
      cases t <;> simp
    simp only [Option.map_some, Option.bind_some, CaseBlind.dropWhile isTokChar_lowerChar,
      CaseBlind.takeWhile isTokChar_lowerChar, CaseBlind.dropWhile isSep_lowerChar, isOpc_lower,
      lower_lower, isTok_lower, hsep, classify_lower, offsetBase_lower, Option.map_map]
    congr 3
    funext p
    simp

theorem operandTokens_lower (t : Text) :
    operandTokens (lower t) = (operandTokens t).map (List.map lower) := by
  unfold operandTokens
  rw [isEmpty_lower, takeWs_lower]
  by_cases hnil : t.isEmpty = true
  · simp [hnil]
  · simp only [hnil]
    cases takeWs t with
    | none => rfl
    | some rest =>
      simp only [Option.map_some, Option.bind_some, sepList_lower]
      cases sepList rest with
      | none => rfl
      | some tokens =>
        have hblind : (tokens.map lower).all isTok = tokens.all isTok := by
          simp [List.all_map, Function.comp_def]
        simp only [Option.map_some, Option.bind_some, hblind, List.length_map]
        by_cases h : (decide (tokens.length ≤ 3) && tokens.all isTok) = true
        · simp [h]
        · simp [h]

theorem recognizeOperation_lower (mnemonics : List Text) (label : Option Text) (t : Text) :
    recognizeOperation mnemonics label (lower t) = recognizeOperation mnemonics label t := by
  unfold recognizeOperation
  simp only [CaseBlind.dropWhile isWordChar_lowerChar, CaseBlind.takeWhile isWordChar_lowerChar,
    isOpc_lower, lower_lower, operandTokens_lower, Option.map_map]
  congr 2
  funext tokens
  simp [Function.comp_def]

theorem recognizeGeneric_lower (mnemonics : List Text) (line : Text) :
    recognizeGeneric mnemonics (lower line) = recognizeGeneric mnemonics line := by
  unfold recognizeGeneric
  rw [takeLabel_lower]
  cases takeLabel line with
  | none => exact recognizeOperation_lower mnemonics none line
  | some p =>
    simp only [Option.map_some, Prod.map, lower_lower, CaseBlind.dropWhile isBlank_lowerChar]
    exact recognizeOperation_lower _ _ _

/-- What the decoder answers, its error apart, is what the recognizers do with the trimmed line. -/
theorem toOption_parse (mnemonics : List Text) (line : Text) :
    (parse mnemonics line).toOption = recognize mnemonics (trimBlanks line) := by
  unfold parse
  cases recognize mnemonics (trimBlanks line) with
  | none => rfl
  | some i => rfl

/-- Settles O4: trimming commutes with folding, and each recognizer answers a folded line as it does
the line. -/
theorem letterCaseDoesNotMatter : Obligations.LetterCaseDoesNotMatter := by
  intro mnemonics line
  rw [toOption_parse, toOption_parse, trimBlanks_lower]
  simp only [recognize, recognizeSection_lower, recognizeSpace_lower, recognizeWord_lower,
    recognizeLabel_lower, recognizeBaseOffset_lower, recognizeGeneric_lower]

end Sys2Proof.Proofs
end

/-! ## What the recognizers read: O2, O3 -/

section
namespace Sys2Proof.Proofs

open Sys2Proof Sys2Proof.Machine

/-! ### The lexical classes, character by character (30_encoding.md R93) -/

/-- What a token character is not. -/
theorem isTokChar_eq_false {c : Char} : isTokChar c = false ↔
    c = ' ' ∨ c = '\t' ∨ c = ',' ∨ c = ':' ∨ c = '(' ∨ c = ')' := by
  simp only [isTokChar, isSep, isBlank, Bool.not_eq_false', Bool.or_eq_true, beq_iff_eq, or_assoc]

theorem isTokChar_of_isWordChar {c : Char} (h : isWordChar c = true) : isTokChar c = true := by
  rw [← Bool.not_eq_false, isTokChar_eq_false]
  rintro (rfl | rfl | rfl | rfl | rfl | rfl) <;> cases h

theorem isSep_of_isTokChar {c : Char} (h : isTokChar c = true) : isSep c = false := by
  by_contra hsep
  simp [isTokChar, hsep] at h

theorem isBlank_of_isSep_eq_false {c : Char} (h : isSep c = false) : isBlank c = false := by
  simp only [isSep, Bool.or_eq_false_iff] at h
  exact h.1

theorem isTok_iff {t : Text} : isTok t = true ↔ t ≠ [] ∧ ∀ c ∈ t, isTokChar c = true := by
  simp [isTok]

theorem isIdent_of_isOpc {t : Text} (h : isOpc t = true) : isIdent t = true := by
  cases t with
  | nil => cases h
  | cons c cs =>
    obtain ⟨hc, hcs⟩ := Bool.and_eq_true_iff.mp h
    simp [isIdent, hc, hcs]

theorem isWordChar_of_mem_ident {t : Text} (h : isIdent t = true) {c : Char} (hc : c ∈ t) :
    isWordChar c = true := by
  cases t with
  | nil => cases hc
  | cons d ds =>
    obtain ⟨hd, hds⟩ := Bool.and_eq_true_iff.mp h
    obtain rfl | hmem := List.mem_cons.mp hc
    · obtain hd | hd := Bool.or_eq_true_iff.mp hd <;> simp [isWordChar, hd]
    · exact List.all_eq_true.mp hds c hmem

theorem isTok_of_isIdent {t : Text} (h : isIdent t = true) : isTok t = true :=
  isTok_iff.mpr ⟨(by rintro rfl; cases h),
    fun _ hc => isTokChar_of_isWordChar (isWordChar_of_mem_ident h hc)⟩

/-- A text that an opcode starts has a first character, of the opcode's word. -/
theorem exists_cons_of_isOpc_takeWhile {t : Text} (h : isOpc (t.takeWhile isWordChar) = true) :
    ∃ c cs, t = c :: cs ∧ isWordChar c = true := by
  cases t with
  | nil => cases h
  | cons c cs =>
    refine ⟨c, cs, rfl, ?_⟩
    by_contra hc
    simp [hc, isOpc] at h

/-! ### The readers -/

/-- A label is read off exactly an identifier and a colon. -/
theorem takeLabel_eq_some {t l rest : Text} :
    takeLabel t = some (l, rest) ↔ t = l ++ ':' :: rest ∧ isIdent l = true := by
  constructor
  · intro h
    have hsplit : t.takeWhile isWordChar ++ t.dropWhile isWordChar = t :=
      List.takeWhile_append_dropWhile
    unfold takeLabel at h
    split at h
    · next r hr =>
      split at h
      · next hid =>
        cases h
        exact ⟨by rw [← hr, hsplit], hid⟩
      · cases h
    · cases h
  · rintro ⟨rfl, hid⟩
    have hword : ∀ c ∈ l, isWordChar c = true := fun c => isWordChar_of_mem_ident hid
    have hcolon : isWordChar ':' = false := rfl
    simp [takeLabel, List.takeWhile_append_of_pos hword, List.dropWhile_append_of_pos hword,
      hcolon, hid]

/-- No label is read off a text that goes on after its first word with anything but a colon. -/
theorem takeLabel_eq_none {t : Text} (h : (t.dropWhile isWordChar).head? ≠ some ':') :
    takeLabel t = none := by
  unfold takeLabel
  split
  · next hrest => exact absurd (congrArg List.head? hrest) h
  · rfl

theorem takeWs_eq_some {t rest : Text} :
    takeWs t = some rest ↔
      ∃ c cs, t = c :: cs ∧ isBlank c = true ∧ cs.dropWhile isBlank = rest := by
  cases t with
  | nil => simp [takeWs]
  | cons c cs =>
    by_cases hc : isBlank c = true
    · simp [takeWs, hc]
    · simp [takeWs, hc]

theorem lower_of_takeKeyword {keyword t rest : Text} (h : takeKeyword keyword t = some rest) :
    lower t = keyword ++ lower rest := by
  unfold takeKeyword at h
  split at h
  · next hk =>
    cases h
    calc lower t = lower (t.take keyword.length ++ t.drop keyword.length) := by
          rw [List.take_append_drop]
      _ = keyword ++ lower (t.drop keyword.length) := by rw [lower_append, hk]
  · cases h

theorem lower_of_afterKeyword {keyword t rest : Text} (h : afterKeyword keyword t = some rest) :
    ∃ u, lower (t.dropWhile isBlank) = keyword ++ u := by
  obtain ⟨u, hu, -⟩ := Option.bind_eq_some_iff.mp h
  exact ⟨_, lower_of_takeKeyword hu⟩

/-- A word that has begun is read to the end. -/
theorem wordsFrom_ne_nil (t : Text) {current : Text} (h : current ≠ []) :
    wordsFrom t current ≠ [] := by
  induction t generalizing current with
  | nil => simp [wordsFrom, h]
  | cons c cs ih =>
    by_cases hc : isSep c = true
    · simp [wordsFrom, hc, h]
    · simpa [wordsFrom, hc] using ih (List.cons_ne_nil c current)

/-- Reading words loses no character but the separators. -/
theorem exists_mem_wordsFrom {c : Char} (hc : isSep c = false) (t current : Text)
    (h : c ∈ t ∨ c ∈ current) : ∃ w ∈ wordsFrom t current, c ∈ w := by
  induction t generalizing current with
  | nil =>
    have hmem : c ∈ current := by simpa using h
    simp [wordsFrom, List.ne_nil_of_mem hmem, hmem]
  | cons d ds ih =>
    by_cases hd : isSep d = true
    · have hne : c ≠ d := by rintro rfl; simp [hd] at hc
      by_cases hnil : current = []
      · subst hnil
        simpa [wordsFrom, hd] using ih [] (by simpa [hne] using h)
      · simp only [wordsFrom, hd, List.isEmpty_iff, hnil, if_true, if_false]
        obtain hmem | hmem := h
        · obtain ⟨w, hw, hcw⟩ := ih [] (.inl (by simpa [hne] using hmem))
          exact ⟨w, List.mem_cons_of_mem _ hw, hcw⟩
        · exact ⟨_, List.mem_cons_self, List.mem_reverse.mpr hmem⟩
    · simp only [wordsFrom, hd]
      exact ih (d :: current) (by simp only [List.mem_cons] at h ⊢; tauto)

theorem sepList_eq_some {t : Text} {ws : List Text} (h : sepList t = some ws) :
    ws = wordsFrom t [] ∧ ws ≠ [] := by
  unfold sepList at h
  split at h
  · next c d hhead hlast =>
    split at h
    · cases h
    · next hsep =>
      cases h
      refine ⟨rfl, ?_⟩
      cases t with
      | nil => cases hhead
      | cons e es =>
        obtain rfl : e = c := Option.some.inj hhead
        have he : isSep e = false := by
          simp only [Bool.or_eq_true, not_or, Bool.not_eq_true] at hsep
          exact hsep.1
        simpa [wordsFrom, he] using wordsFrom_ne_nil es (List.cons_ne_nil e [])
  · cases h

/-! ### What each recognizer answers (30_encoding.md R95 to R100) -/

theorem recognizeSection_eq_some {line : Text} {i : Instr} (h : recognizeSection line = some i) :
    ∃ name, line = '.' :: name ∧ isIdent name = true ∧ i = .sectionLine ('.' :: lower name) := by
  unfold recognizeSection at h
  split at h
  · next name =>
    split at h
    · next hid => exact ⟨name, rfl, hid, (Option.some.inj h).symm⟩
    · cases h
  · cases h

theorem recognizeSpace_eq_some {line : Text} {i : Instr} (h : recognizeSpace line = some i) :
    ∃ l rest count, takeLabel line = some (l, rest) ∧
      afterKeyword (text ".space") rest = some count ∧
      i = .spaceLine (lower l) (natValue count) := by
  rw [recognizeSpace_eq] at h
  obtain ⟨⟨l, rest⟩, hl, h⟩ := Option.bind_eq_some_iff.mp h
  obtain ⟨count, hcount, h⟩ := Option.bind_eq_some_iff.mp h
  split at h
  · exact ⟨l, rest, count, hl, hcount, (Option.some.inj h).symm⟩
  · cases h

theorem recognizeWord_eq_some {line : Text} {i : Instr} (h : recognizeWord line = some i) :
    ∃ l rest t values, takeLabel line = some (l, rest) ∧
      afterKeyword (text ".word") rest = some t ∧ sepList t = some values ∧
      i = .wordLine (lower l) (values.map intValue) := by
  rw [recognizeWord_eq] at h
  obtain ⟨⟨l, rest⟩, hl, h⟩ := Option.bind_eq_some_iff.mp h
  obtain ⟨values, hvalues, h⟩ := Option.bind_eq_some_iff.mp h
  obtain ⟨t, ht, hsep⟩ := Option.bind_eq_some_iff.mp hvalues
  split at h
  · exact ⟨l, rest, t, values, hl, ht, hsep, (Option.some.inj h).symm⟩
  · cases h

theorem recognizeLabel_eq_some {line : Text} {i : Instr} (h : recognizeLabel line = some i) :
    ∃ l, takeLabel line = some (l, []) ∧ i = .labelLine (lower l) := by
  obtain ⟨⟨l, rest⟩, hl, h⟩ := Option.bind_eq_some_iff.mp h
  split at h
  · next hrest =>
    obtain rfl : rest = [] := List.isEmpty_iff.mp hrest
    exact ⟨l, hl, (Option.some.inj h).symm⟩
  · cases h

theorem offsetBase_eq_some {t : Text} {p : Int × Text} (h : offsetBase t = some p) :
    '(' ∈ t ∧ isTok p.2 = true := by
  unfold offsetBase at h
  dsimp only at h
  split at h
  · next inner hparen =>
    have hmem : '(' ∈ t.dropWhile isTokChar := hparen ▸ List.mem_cons_self
    split at h
    · next hcond =>
      cases h
      simp only [Bool.and_eq_true] at hcond
      obtain ⟨⟨-, hbase⟩, -⟩ := hcond
      exact ⟨List.dropWhile_subset _ hmem, hbase⟩
    · cases h
  · cases h

theorem recognizeBaseOffset_eq_some {mnemonics : List Text} {line : Text} {i : Instr}
    (h : recognizeBaseOffset mnemonics line = some i) :
    ∃ rest dest offset base, isOpc (line.takeWhile isWordChar) = true ∧
      takeWs (line.dropWhile isWordChar) = some rest ∧ '(' ∈ rest ∧
      isTok dest = true ∧ isTok base = true ∧
      i = operationOf mnemonics none (lower (line.takeWhile isWordChar))
        [classify dest, .int offset, classify base] := by
  unfold recognizeBaseOffset at h
  dsimp only at h
  split at h
  · next hopc =>
    obtain ⟨rest, hrest, h⟩ := Option.bind_eq_some_iff.mp h
    split at h
    · next hdest =>
      obtain ⟨⟨offset, base⟩, hob, rfl⟩ := Option.map_eq_some_iff.mp h
      obtain ⟨hparen, hbase⟩ := offsetBase_eq_some hob
      obtain ⟨hdest, -⟩ := Bool.and_eq_true_iff.mp hdest
      have hmem : '(' ∈ rest := List.dropWhile_subset _ (List.dropWhile_subset _ hparen)
      exact ⟨rest, _, offset, base, hopc, hrest, hmem, hdest, hbase, rfl⟩
    · cases h
  · cases h

theorem operandTokens_eq_some {t : Text} {tokens : List Text} (h : operandTokens t = some tokens) :
    tokens.length ≤ 3 ∧ (∀ w ∈ tokens, isTok w = true) ∧
      (t = [] ∨ ∃ rest, takeWs t = some rest ∧ tokens = wordsFrom rest []) := by
  unfold operandTokens at h
  split at h
  · next hnil =>
    cases h
    exact ⟨by simp, nofun, .inl (List.isEmpty_iff.mp hnil)⟩
  · obtain ⟨ws, hws, h⟩ := Option.bind_eq_some_iff.mp h
    obtain ⟨rest, hrest, hsep⟩ := Option.bind_eq_some_iff.mp hws
    split at h
    · next hcond =>
      cases h
      obtain ⟨hlen, hall⟩ := Bool.and_eq_true_iff.mp hcond
      obtain ⟨hwords, -⟩ := sepList_eq_some hsep
      exact ⟨of_decide_eq_true hlen, List.all_eq_true.mp hall, .inr ⟨rest, hrest, hwords⟩⟩
    · cases h

theorem recognizeOperation_eq_some {mnemonics : List Text} {label : Option Text} {t : Text}
    {i : Instr} (h : recognizeOperation mnemonics label t = some i) :
    ∃ tokens, isOpc (t.takeWhile isWordChar) = true ∧
      operandTokens (t.dropWhile isWordChar) = some tokens ∧
      i = operationOf mnemonics label (lower (t.takeWhile isWordChar)) (tokens.map classify) := by
  unfold recognizeOperation at h
  dsimp only at h
  split at h
  · next hopc =>
    obtain ⟨tokens, htokens, rfl⟩ := Option.map_eq_some_iff.mp h
    exact ⟨tokens, hopc, htokens, rfl⟩
  · cases h

theorem recognizeGeneric_eq_some {mnemonics : List Text} {line : Text} {i : Instr}
    (h : recognizeGeneric mnemonics line = some i) :
    (∃ l rest, takeLabel line = some (l, rest) ∧
      recognizeOperation mnemonics (some (lower l)) (rest.dropWhile isBlank) = some i) ∨
    (takeLabel line = none ∧ recognizeOperation mnemonics none line = some i) := by
  unfold recognizeGeneric at h
  split at h
  · next l rest hl => exact .inl ⟨l, rest, hl, h⟩
  · next hl => exact .inr ⟨hl, h⟩

/-! ### One recognizer for each line (30_encoding.md R94)

The number of the one recognizer that can match a line is read off the line itself; each recognizer
answers only lines of its number. -/

/-- The recognizer that a line's form leaves possible, by its number in R95 to R100. -/
def recognizerNumber (line : Text) : Nat :=
  match takeLabel line with
  | some (_, rest) =>
    match lower (rest.dropWhile isBlank) with
    | '.' :: 's' :: _ => 2
    | '.' :: 'w' :: _ => 3
    | [] => 4
    | _ => 6
  | none => if line.head? = some '.' then 1 else if '(' ∈ line then 5 else 6

theorem recognizerNumber_of_section {line : Text} {i : Instr}
    (h : recognizeSection line = some i) : recognizerNumber line = 1 := by
  obtain ⟨name, rfl, -, -⟩ := recognizeSection_eq_some h
  have hnone : takeLabel ('.' :: name) = none := takeLabel_eq_none nofun
  simp [recognizerNumber, hnone]

theorem recognizerNumber_of_space {line : Text} {i : Instr}
    (h : recognizeSpace line = some i) : recognizerNumber line = 2 := by
  obtain ⟨l, rest, count, hl, hcount, -⟩ := recognizeSpace_eq_some h
  obtain ⟨u, hu⟩ := lower_of_afterKeyword hcount
  simp [recognizerNumber, hl, hu, text]

theorem recognizerNumber_of_word {line : Text} {i : Instr}
    (h : recognizeWord line = some i) : recognizerNumber line = 3 := by
  obtain ⟨l, rest, t, values, hl, ht, -⟩ := recognizeWord_eq_some h
  obtain ⟨u, hu⟩ := lower_of_afterKeyword ht
  simp [recognizerNumber, hl, hu, text]

theorem recognizerNumber_of_label {line : Text} {i : Instr}
    (h : recognizeLabel line = some i) : recognizerNumber line = 4 := by
  obtain ⟨l, hl, -⟩ := recognizeLabel_eq_some h
  simp [recognizerNumber, hl]

theorem ne_dot_of_isWordChar {c : Char} (h : isWordChar c = true) : c ≠ '.' := by
  rintro rfl
  cases h

/-- A text that an operation starts does not start with a dot. -/
theorem head?_ne_dot_of_isOpc_takeWhile {t : Text} (h : isOpc (t.takeWhile isWordChar) = true) :
    t.head? ≠ some '.' := by
  obtain ⟨c, cs, rfl, hc⟩ := exists_cons_of_isOpc_takeWhile h
  exact fun hdot => ne_dot_of_isWordChar hc (Option.some.inj hdot)

theorem recognizerNumber_of_baseOffset {mnemonics : List Text} {line : Text} {i : Instr}
    (h : recognizeBaseOffset mnemonics line = some i) : recognizerNumber line = 5 := by
  obtain ⟨rest, -, -, -, hopc, hrest, hmem, -⟩ := recognizeBaseOffset_eq_some h
  obtain ⟨c, cs, hline, hc, rfl⟩ := takeWs_eq_some.mp hrest
  have hnone : takeLabel line = none := takeLabel_eq_none fun hcolon => by
    obtain rfl : c = ':' := by simpa [hline] using hcolon
    cases hc
  have hparen : '(' ∈ line := by
    have hcs : '(' ∈ c :: cs := List.mem_cons_of_mem _ (List.dropWhile_subset _ hmem)
    exact List.dropWhile_subset _ (hline ▸ hcs)
  simp [recognizerNumber, hnone, head?_ne_dot_of_isOpc_takeWhile hopc, hparen]

/-- Operands that are all token characters and separators hold no parenthesis. -/
theorem paren_not_mem_of_operandTokens {t : Text} {tokens : List Text}
    (h : operandTokens t = some tokens) : '(' ∉ t := by
  obtain ⟨-, htok, rfl | ⟨rest, hrest, rfl⟩⟩ := operandTokens_eq_some h
  · exact List.not_mem_nil
  · obtain ⟨c, cs, rfl, hc, rfl⟩ := takeWs_eq_some.mp hrest
    intro hmem
    have hcs : '(' ∈ cs.takeWhile isBlank ++ cs.dropWhile isBlank := by
      rw [List.takeWhile_append_dropWhile]
      exact (List.mem_cons.mp hmem).resolve_left (by rintro rfl; cases hc)
    obtain hblank | hrest := List.mem_append.mp hcs
    · cases List.mem_takeWhile_imp hblank
    · obtain ⟨w, hw, hparen⟩ := exists_mem_wordsFrom (c := '(') rfl _ [] (.inl hrest)
      cases (isTok_iff.mp (htok w hw)).2 '(' hparen

theorem recognizerNumber_of_generic {mnemonics : List Text} {line : Text} {i : Instr}
    (h : recognizeGeneric mnemonics line = some i) : recognizerNumber line = 6 := by
  obtain ⟨l, rest, hl, hop⟩ | ⟨hnone, hop⟩ := recognizeGeneric_eq_some h
  · obtain ⟨-, hopc, -, -⟩ := recognizeOperation_eq_some hop
    obtain ⟨c, cs, hrest, hc⟩ := exists_cons_of_isOpc_takeWhile hopc
    have hdot : lowerChar c ≠ '.' := ne_dot_of_isWordChar (by simpa using hc)
    simp [recognizerNumber, hl, hrest, hdot]
  · obtain ⟨tokens, hopc, htokens, -⟩ := recognizeOperation_eq_some hop
    have hparen : '(' ∉ line := by
      rw [← List.takeWhile_append_dropWhile (p := isWordChar) (l := line), List.mem_append]
      rintro (hmem | hmem)
      · cases List.mem_takeWhile_imp hmem
      · exact paren_not_mem_of_operandTokens htokens hmem
    simp [recognizerNumber, hnone, head?_ne_dot_of_isOpc_takeWhile hopc, hparen]

/-- The six recognizers' answers to a line, in their order. -/
def recognizerAnswers (mnemonics : List Text) (line : Text) : List (Option Instr) :=
  [recognizeSection line, recognizeSpace line, recognizeWord line, recognizeLabel line,
    recognizeBaseOffset mnemonics line, recognizeGeneric mnemonics line]

/-- Only the recognizer of a line's number answers it. -/
theorem recognizerNumber_of_answer {mnemonics : List Text} {line : Text} {k : Nat} {i : Instr}
    (h : (recognizerAnswers mnemonics line)[k]? = some (some i)) :
    recognizerNumber line = k + 1 := by
  match k with
  | 0 => exact recognizerNumber_of_section (Option.some.inj h)
  | 1 => exact recognizerNumber_of_space (Option.some.inj h)
  | 2 => exact recognizerNumber_of_word (Option.some.inj h)
  | 3 => exact recognizerNumber_of_label (Option.some.inj h)
  | 4 => exact recognizerNumber_of_baseOffset (Option.some.inj h)
  | 5 => exact recognizerNumber_of_generic (Option.some.inj h)
  | _ + 6 => cases h

/-- No two recognizers both answer a line. -/
theorem recognizerAnswers_pairwise (mnemonics : List Text) (line : Text) :
    (recognizerAnswers mnemonics line).Pairwise fun o o' =>
      ¬ (o.isSome = true ∧ o'.isSome = true) := by
  rw [List.pairwise_iff_getElem]
  rintro j k hj hk hlt ⟨hsome, hsome'⟩
  obtain ⟨i, hi⟩ := Option.isSome_iff_exists.mp hsome
  obtain ⟨i', hi'⟩ := Option.isSome_iff_exists.mp hsome'
  have hnumber := recognizerNumber_of_answer (hi ▸ List.getElem?_eq_getElem hj)
  have hnumber' := recognizerNumber_of_answer (hi' ▸ List.getElem?_eq_getElem hk)
  omega

/-- Settles O3: of two recognizers that answer, neither comes before the other. -/
theorem recognizersArePairwiseDisjoint : Obligations.RecognizersArePairwiseDisjoint := by
  intro mnemonics line
  have hpair := (recognizerAnswers_pairwise mnemonics line).filter Option.isSome
  change ((recognizerAnswers mnemonics line).filter Option.isSome).length ≤ 1
  match hf : (recognizerAnswers mnemonics line).filter Option.isSome with
  | [] => exact Nat.zero_le 1
  | [_] => exact le_rfl
  | o :: o' :: rest =>
    have hmem : ∀ x ∈ o :: o' :: rest, x.isSome = true := fun x hx =>
      (List.mem_filter.mp (hf ▸ hx)).2
    rw [hf] at hpair
    exact absurd ⟨hmem o (by simp), hmem o' (by simp)⟩ (List.rel_of_pairwise_cons hpair (by simp))

/-- Where at most one entry answers, the first answer is any. -/
theorem foldr_or_eq_some {α : Type} {answers : List (Option α)} {a : α}
    (h : answers.Pairwise fun o o' => ¬ (o.isSome = true ∧ o'.isSome = true)) :
    answers.foldr Option.or none = some a ↔ some a ∈ answers := by
  induction answers with
  | nil => simp
  | cons o rest ih =>
    obtain ⟨hfirst, hrest⟩ := List.pairwise_cons.mp h
    cases o with
    | none => simpa using ih hrest
    | some b =>
      have hnot : some a ∉ rest := fun hmem => hfirst _ hmem ⟨rfl, rfl⟩
      simp [hnot, eq_comm]

/-- The priority of the recognizers decides nothing: a line's record is any recognizer's answer. -/
theorem recognize_eq_some {mnemonics : List Text} {line : Text} {i : Instr} :
    recognize mnemonics line = some i ↔ some i ∈ recognizerAnswers mnemonics line := by
  rw [← foldr_or_eq_some (recognizerAnswers_pairwise mnemonics line)]
  simp [recognize, recognizerAnswers]

theorem parse_eq_ok {mnemonics : List Text} {line : Text} {i : Instr} :
    parse mnemonics line = .ok i ↔ some i ∈ recognizerAnswers mnemonics (trimBlanks line) := by
  rw [← recognize_eq_some]
  unfold parse
  cases recognize mnemonics (trimBlanks line) with
  | none => simp
  | some j => simp

/-! ### The records of the recognizers' answers are well-formed (30_encoding.md R95 to R102) -/

theorem isLabelName_lower {t : Text} (h : isIdent t = true) : isLabelName (lower t) = true := by
  simp [isLabelName, h]

theorem isLabelName_of_takeLabel {line l rest : Text} (h : takeLabel line = some (l, rest)) :
    isLabelName (lower l) = true :=
  isLabelName_lower (takeLabel_eq_some.mp h).2

theorem classify_wf {t : Text} (h : isTok t = true) : (classify t).wf = true := by
  unfold classify
  split
  · rfl
  · next hint => simp [Operand.wf, isSymbolName, h, hint]

/-- The 43 operations' records ask the same of their label and operands. -/
theorem wf_of_mem_operations {mnemonics : List Text} {make : Option Text → List Operand → Instr}
    (h : make ∈ operations) (label : Option Text) (ops : List Operand) :
    (make label ops).wf mnemonics = operationWf label ops := by
  revert make
  simp [operations, Instr.wf, Instr.operation?]

theorem mnemonicsWf_iff {mnemonics : List Text} :
    mnemonicsWf mnemonics = true ↔ mnemonics.length = operations.length ∧ mnemonics.Nodup ∧
      ∀ m ∈ mnemonics, isOpcodeName m = true := by
  simp [mnemonicsWf, and_assoc]

theorem operationOf_of_idxOf? {mnemonics : List Text} {opcode : Text} {id : Nat}
    {make : Option Text → List Operand → Instr} (hid : mnemonics.idxOf? opcode = some id)
    (hmake : operations[id]? = some make) (label : Option Text) (ops : List Operand) :
    operationOf mnemonics label opcode ops = make label ops := by
  simp [operationOf, hid, hmake]

theorem operationOf_of_not_mem {mnemonics : List Text} {opcode : Text} (h : opcode ∉ mnemonics)
    (label : Option Text) (ops : List Operand) :
    operationOf mnemonics label opcode ops = .unknownOp label opcode ops := by
  simp [operationOf, List.idxOf?_eq_none_iff.mpr h]

/-- The record of an operation: by its mnemonic's place, or unknown (30_encoding.md R104). -/
theorem operationOf_cases {mnemonics : List Text} (hm : mnemonicsWf mnemonics = true)
    (label : Option Text) (opcode : Text) (ops : List Operand) :
    (∃ make ∈ operations, operationOf mnemonics label opcode ops = make label ops) ∨
    (opcode ∉ mnemonics ∧
      operationOf mnemonics label opcode ops = .unknownOp label opcode ops) := by
  obtain ⟨hlen, -, -⟩ := mnemonicsWf_iff.mp hm
  by_cases hmem : opcode ∈ mnemonics
  · obtain ⟨id, hid⟩ := Option.isSome_iff_exists.mp (List.isSome_idxOf?.mpr hmem)
    obtain ⟨hlt, -, -⟩ := List.idxOf?_eq_some_iff.mp hid
    have hmake : operations[id]? = some operations[id] := List.getElem?_eq_getElem (hlen ▸ hlt)
    exact .inl ⟨_, List.mem_of_getElem? hmake, operationOf_of_idxOf? hid hmake label ops⟩
  · exact .inr ⟨hmem, operationOf_of_not_mem hmem label ops⟩

theorem operationOf_wf {mnemonics : List Text} (hm : mnemonicsWf mnemonics = true)
    {label : Option Text} {opcode : Text} {ops : List Operand}
    (hopcode : isOpc opcode = true) (hops : operationWf label ops = true) :
    (operationOf mnemonics label (lower opcode) ops).wf mnemonics = true := by
  obtain ⟨make, hmake, hof⟩ | ⟨hnot, hof⟩ := operationOf_cases hm label (lower opcode) ops
  · rw [hof, wf_of_mem_operations hmake, hops]
  · rw [hof]
    simp [Instr.wf, hops, isOpcodeName, hopcode, hnot]

theorem operationWf_iff {label : Option Text} {ops : List Operand} :
    operationWf label ops = true ↔ label.all isLabelName = true ∧ ops.length ≤ 3 ∧
      ∀ o ∈ ops, o.wf = true := by
  simp [operationWf, and_assoc]

theorem recognizeOperation_wf {mnemonics : List Text} (hm : mnemonicsWf mnemonics = true)
    {label : Option Text} (hlabel : label.all isLabelName = true) {t : Text}
    {i : Instr} (h : recognizeOperation mnemonics label t = some i) : i.wf mnemonics = true := by
  obtain ⟨tokens, hopc, htokens, rfl⟩ := recognizeOperation_eq_some h
  obtain ⟨hlen, htok, -⟩ := operandTokens_eq_some htokens
  refine operationOf_wf hm hopc (operationWf_iff.mpr ⟨hlabel, by simpa using hlen, ?_⟩)
  simpa using fun w hw => classify_wf (htok w hw)

/-- Settles O2, by the recognizer that answers. -/
theorem decodedRecordsAreWellFormed : Obligations.DecodedRecordsAreWellFormed := by
  intro mnemonics line i hm h
  have hanswer := parse_eq_ok.mp h
  simp only [recognizerAnswers, List.mem_cons, List.not_mem_nil, or_false] at hanswer
  obtain hans | hans | hans | hans | hans | hans := hanswer
  · obtain ⟨name, -, hid, rfl⟩ := recognizeSection_eq_some hans.symm
    exact isLabelName_lower hid
  · obtain ⟨l, rest, count, hl, -, rfl⟩ := recognizeSpace_eq_some hans.symm
    exact isLabelName_of_takeLabel hl
  · obtain ⟨l, rest, t, values, hl, -, hvalues, rfl⟩ := recognizeWord_eq_some hans.symm
    obtain ⟨-, hne⟩ := sepList_eq_some hvalues
    simp [Instr.wf, isLabelName_of_takeLabel hl, hne]
  · obtain ⟨l, hl, rfl⟩ := recognizeLabel_eq_some hans.symm
    exact isLabelName_of_takeLabel hl
  · obtain ⟨rest, dest, offset, base, hopc, -, -, hdest, hbase, rfl⟩ :=
      recognizeBaseOffset_eq_some hans.symm
    refine operationOf_wf hm hopc (operationWf_iff.mpr ⟨rfl, le_rfl, ?_⟩)
    simpa using ⟨classify_wf hdest, rfl, classify_wf hbase⟩
  · obtain ⟨l, rest, hl, hop⟩ | ⟨-, hop⟩ := recognizeGeneric_eq_some hans.symm
    · exact recognizeOperation_wf (label := some (lower l)) hm (isLabelName_of_takeLabel hl) hop
    · exact recognizeOperation_wf hm rfl hop

end Sys2Proof.Proofs
end

/-! ## The decoder reads back what the encoder writes: O1 -/

section
namespace Sys2Proof.Proofs

open Sys2Proof Sys2Proof.Machine

/-! ### Decimal numbers (30_encoding.md R101, R111) -/

/-- The character of a digit. -/
theorem toNat_digitChar {d : Nat} (h : d < 10) : (Char.ofNat ('0'.toNat + d)).toNat = 48 + d := by
  have hvalid : (48 + d).isValidChar := .inl (by omega)
  exact (Char.toNat_ofNat _).trans (if_pos hvalid)

theorem isDigit_digitChar {d : Nat} (h : d < 10) : isDigit (Char.ofNat ('0'.toNat + d)) = true := by
  have hrange : 48 ≤ 48 + d ∧ 48 + d ≤ 57 := by omega
  rw [← toNat_digitChar h] at hrange
  exact charBetween_iff.mpr hrange

theorem digitValue_digitChar {d : Nat} (h : d < 10) :
    digitValue (Char.ofNat ('0'.toNat + d)) = d := by
  rw [digitValue, toNat_digitChar h]
  exact Nat.add_sub_cancel_left 48 d

theorem natValue_append_singleton (t : Text) (c : Char) :
    natValue (t ++ [c]) = 10 * natValue t + digitValue c := by
  simp [natValue]

theorem isNatText_iff {t : Text} : isNatText t = true ↔ t ≠ [] ∧ ∀ c ∈ t, isDigit c = true := by
  simp [isNatText]

/-- With fuel for every digit, `decimalFrom` writes the digits of the number in front of `acc`. -/
theorem decimalFrom_spec {fuel n : Nat} (h : n < fuel) (acc : Text) :
    ∃ ds, decimalFrom fuel n acc = ds ++ acc ∧ isNatText ds = true ∧ natValue ds = n := by
  induction fuel generalizing n acc with
  | zero => omega
  | succ fuel ih =>
    have hlt : n % 10 < 10 := Nat.mod_lt _ (by omega)
    by_cases hn : n / 10 = 0
    · refine ⟨[Char.ofNat ('0'.toNat + n % 10)], by simp [decimalFrom, hn], ?_, ?_⟩
      · exact isNatText_iff.mpr ⟨by simp, by simpa using isDigit_digitChar hlt⟩
      · have hvalue := natValue_append_singleton [] (Char.ofNat ('0'.toNat + n % 10))
        rw [List.nil_append, digitValue_digitChar hlt] at hvalue
        have hnil : natValue [] = 0 := rfl
        omega
    · obtain ⟨ds, hds, hnat, hvalue⟩ :=
        ih (n := n / 10) (by omega) (Char.ofNat ('0'.toNat + n % 10) :: acc)
      refine ⟨ds ++ [Char.ofNat ('0'.toNat + n % 10)], ?_, ?_, ?_⟩
      · rw [List.append_assoc, List.singleton_append, ← hds, decimalFrom, if_neg hn]
      · obtain ⟨hne, hdigit⟩ := isNatText_iff.mp hnat
        refine isNatText_iff.mpr ⟨by simp, fun c hc => ?_⟩
        obtain hc | hc := List.mem_append.mp hc
        · exact hdigit c hc
        · exact List.mem_singleton.mp hc ▸ isDigit_digitChar hlt
      · rw [natValue_append_singleton, hvalue, digitValue_digitChar hlt]
        omega

theorem decimalNat_spec (n : Nat) :
    isNatText (decimalNat n) = true ∧ natValue (decimalNat n) = n := by
  obtain ⟨ds, hds, hnat, hvalue⟩ := decimalFrom_spec (Nat.lt_succ_self n) []
  rw [List.append_nil] at hds
  exact ⟨(congrArg isNatText hds).trans hnat, (congrArg natValue hds).trans hvalue⟩

/-- A number has no sign. -/
theorem unsigned_of_isNatText {c : Char} {cs : Text} (h : isNatText (c :: cs) = true) :
    (c == '+') = false ∧ (c == '-') = false := by
  have hdigit := (isNatText_iff.mp h).2 c List.mem_cons_self
  exact ⟨beq_false_of_ne (by rintro rfl; cases hdigit),
    beq_false_of_ne (by rintro rfl; cases hdigit)⟩

theorem isIntText_of_isNatText {t : Text} (h : isNatText t = true) : isIntText t = true := by
  cases t with
  | nil => cases h
  | cons c cs =>
    obtain ⟨hplus, hminus⟩ := unsigned_of_isNatText h
    simp [isIntText_cons, hplus, hminus, h]

theorem intValue_of_isNatText {t : Text} (h : isNatText t = true) : intValue t = natValue t := by
  cases t with
  | nil => rfl
  | cons c cs =>
    obtain ⟨hplus, hminus⟩ := unsigned_of_isNatText h
    simp [intValue, hplus, hminus]

theorem decimalInt_spec (v : Int) :
    isIntText (decimalInt v) = true ∧ intValue (decimalInt v) = v := by
  obtain ⟨hnat, hvalue⟩ := decimalNat_spec v.natAbs
  unfold decimalInt
  split
  · next hneg =>
    have hminus : intValue ('-' :: decimalNat v.natAbs) = -(natValue (decimalNat v.natAbs) : Int) :=
      rfl
    exact ⟨hnat, by rw [hminus, hvalue]; omega⟩
  · next hpos =>
    exact ⟨isIntText_of_isNatText hnat, by rw [intValue_of_isNatText hnat, hvalue]; omega⟩

/-! ### The tokens the encoder writes -/

theorem isWordChar_of_isDigit {c : Char} (h : isDigit c = true) : isWordChar c = true := by
  simp [isWordChar, h]

theorem isTok_of_isNatText {t : Text} (h : isNatText t = true) : isTok t = true := by
  obtain ⟨hne, hdigit⟩ := isNatText_iff.mp h
  exact isTok_iff.mpr
    ⟨hne, fun c hc => isTokChar_of_isWordChar (isWordChar_of_isDigit (hdigit c hc))⟩

theorem isTok_of_isIntText {t : Text} (h : isIntText t = true) : isTok t = true := by
  obtain hnat | ⟨sign, ds, rfl, hsign, hnat⟩ := isIntText_cases h
  · exact isTok_of_isNatText hnat
  · have hds := (isTok_iff.mp (isTok_of_isNatText hnat)).2
    refine isTok_iff.mpr ⟨List.cons_ne_nil sign ds, List.forall_mem_cons.mpr ⟨?_, hds⟩⟩
    obtain rfl | rfl := hsign
    · rfl
    · rfl

theorem isSymbolName_iff {t : Text} :
    isSymbolName t = true ↔ isTok t = true ∧ isIntText t = false ∧ lower t = t := by
  simp [isSymbolName, and_assoc]

theorem isTok_render {o : Operand} (h : o.wf = true) : isTok o.render = true := by
  cases o with
  | int v => exact isTok_of_isIntText (decimalInt_spec v).1
  | sym name => exact (isSymbolName_iff.mp h).1

/-- An operand's text is classified as the operand (30_encoding.md R101, R111). -/
theorem classify_render {o : Operand} (h : o.wf = true) : classify o.render = o := by
  cases o with
  | int v =>
    obtain ⟨hint, hvalue⟩ := decimalInt_spec v
    simp [classify, Operand.render, hint, hvalue]
  | sym name =>
    obtain ⟨-, hint, hlower⟩ := isSymbolName_iff.mp h
    simp [classify, Operand.render, hint, hlower]

/-! ### Texts with nothing to trim

The encoder's texts, and the lists in them, begin and end with a character that is no separator;
such a text is neither trimmed nor refused as a list. -/

/-- A text that begins and ends with a character that is no separator. -/
def Tight (t : Text) : Prop :=
  (∃ c, t.head? = some c ∧ isSep c = false) ∧ ∃ d, t.getLast? = some d ∧ isSep d = false

theorem tight_of_isTok {t : Text} (h : isTok t = true) : Tight t := by
  obtain ⟨hne, htok⟩ := isTok_iff.mp h
  exact ⟨⟨t.head hne, List.head?_eq_some_head hne, isSep_of_isTokChar (htok _ (List.head_mem hne))⟩,
    t.getLast hne, List.getLast?_eq_some_getLast hne,
    isSep_of_isTokChar (htok _ (List.getLast_mem hne))⟩

/-- Whatever stands between two tight texts. -/
theorem Tight.append {t u : Text} (ht : Tight t) (between : Text) (hu : Tight u) :
    Tight (t ++ (between ++ u)) := by
  obtain ⟨⟨c, hc, hcsep⟩, -⟩ := ht
  obtain ⟨-, d, hd, hdsep⟩ := hu
  exact ⟨⟨c, by simp [List.head?_append, hc], hcsep⟩, d, by simp [List.getLast?_append, hd], hdsep⟩

theorem Tight.exists_cons {t : Text} (h : Tight t) : ∃ c cs, t = c :: cs ∧ isSep c = false := by
  obtain ⟨⟨c, hc, hsep⟩, -⟩ := h
  cases t with
  | nil => cases hc
  | cons d ds =>
    obtain rfl : d = c := Option.some.inj hc
    exact ⟨d, ds, rfl, hsep⟩

theorem Tight.reverse {t : Text} (h : Tight t) : Tight t.reverse := by
  obtain ⟨hhead, hlast⟩ := h
  exact ⟨by simpa using hlast, by simpa using hhead⟩

theorem dropWhile_isBlank_of_tight {t : Text} (h : Tight t) : t.dropWhile isBlank = t := by
  obtain ⟨c, cs, rfl, hsep⟩ := h.exists_cons
  simp [isBlank_of_isSep_eq_false hsep]

theorem trimBlanks_of_tight {t : Text} (h : Tight t) : trimBlanks t = t := by
  rw [trimBlanks, dropWhile_isBlank_of_tight h, dropWhile_isBlank_of_tight h.reverse,
    List.reverse_reverse]

theorem takeWs_of_tight {t : Text} (h : Tight t) : takeWs (' ' :: t) = some t :=
  takeWs_eq_some.mpr ⟨' ', t, rfl, rfl, dropWhile_isBlank_of_tight h⟩

theorem sepList_of_tight {t : Text} (h : Tight t) : sepList t = some (wordsFrom t []) := by
  obtain ⟨⟨c, hc, hcsep⟩, d, hd, hdsep⟩ := h
  simp [sepList, hc, hd, hcsep, hdsep]

/-! ### Comma lists -/

theorem commaList_cons_cons (t u : Text) (rest : List Text) :
    commaList (t :: u :: rest) = t ++ (text ", " ++ commaList (u :: rest)) :=
  List.append_assoc _ _ _

theorem tight_commaList {ws : List Text} (hne : ws ≠ []) (h : ∀ w ∈ ws, isTok w = true) :
    Tight (commaList ws) := by
  induction ws with
  | nil => exact absurd rfl hne
  | cons w rest ih =>
    obtain ⟨hw, hrest⟩ := List.forall_mem_cons.mp h
    cases rest with
    | nil => exact tight_of_isTok hw
    | cons u us =>
      rw [commaList_cons_cons]
      exact (tight_of_isTok hw).append _ (ih (List.cons_ne_nil u us) hrest)

/-- A word is read into the word begun before it. -/
theorem wordsFrom_append {w : Text} (hw : ∀ c ∈ w, isSep c = false) (t current : Text) :
    wordsFrom (w ++ t) current = wordsFrom t (w.reverse ++ current) := by
  induction w generalizing current with
  | nil => rfl
  | cons c cs ih =>
    obtain ⟨hc, hcs⟩ := List.forall_mem_cons.mp hw
    simp [wordsFrom, hc, ih hcs]

/-- The words of a comma list are the texts it was made of. -/
theorem wordsFrom_commaList {ws : List Text} (h : ∀ w ∈ ws, isTok w = true) :
    wordsFrom (commaList ws) [] = ws := by
  induction ws with
  | nil => rfl
  | cons w rest ih =>
    obtain ⟨hw, hrest⟩ := List.forall_mem_cons.mp h
    obtain ⟨hne, htok⟩ := isTok_iff.mp hw
    have hsep : ∀ c ∈ w, isSep c = false := fun c hc => isSep_of_isTokChar (htok c hc)
    cases rest with
    | nil =>
      have hread := wordsFrom_append hsep [] []
      rw [List.append_nil] at hread
      simp [commaList, hread, wordsFrom, hne]
    | cons u us =>
      have hcomma : isSep ',' = true := rfl
      have hspace : isSep ' ' = true := rfl
      rw [commaList_cons_cons, wordsFrom_append hsep]
      simp [text, wordsFrom, hcomma, hspace, hne, ih hrest]

theorem sepList_commaList {ws : List Text} (hne : ws ≠ []) (h : ∀ w ∈ ws, isTok w = true) :
    sepList (commaList ws) = some ws := by
  rw [sepList_of_tight (tight_commaList hne h), wordsFrom_commaList h]

/-! ### Each line of the encoder is read back by its recognizer -/

theorem isLabelName_iff {t : Text} : isLabelName t = true ↔ isIdent t = true ∧ lower t = t := by
  simp [isLabelName]

theorem isOpcodeName_iff {t : Text} : isOpcodeName t = true ↔ isOpc t = true ∧ lower t = t := by
  simp [isOpcodeName]

theorem takeKeyword_append {keyword : Text} (h : lower keyword = keyword) (t : Text) :
    takeKeyword keyword (keyword ++ t) = some t := by
  simp [takeKeyword, h]

/-- A data line's keyword, written with a space on either side. -/
theorem afterKeyword_append {name t : Text} (hname : lower name = name) (ht : Tight t) :
    afterKeyword ('.' :: name) (' ' :: (('.' :: name) ++ ' ' :: t)) = some t := by
  have hkeyword : lower ('.' :: name) = '.' :: name := congrArg _ hname
  have hblank : (' ' :: (('.' :: name) ++ ' ' :: t)).dropWhile isBlank =
      ('.' :: name) ++ ' ' :: t := rfl
  rw [afterKeyword, hblank, takeKeyword_append hkeyword, Option.bind_some, takeWs_of_tight ht]

theorem recognizeSection_of_name {name : Text} (h : isLabelName name = true) :
    recognizeSection ('.' :: name) = some (.sectionLine ('.' :: name)) := by
  obtain ⟨hid, hlower⟩ := isLabelName_iff.mp h
  simp [recognizeSection, hid, hlower]

theorem recognizeSpace_of_count {label count : Text} (hlabel : isLabelName label = true)
    (hcount : isNatText count = true) :
    recognizeSpace (label ++ (text ": .space " ++ count)) =
      some (.spaceLine label (natValue count)) := by
  obtain ⟨hid, hlower⟩ := isLabelName_iff.mp hlabel
  have hline : label ++ (text ": .space " ++ count) =
      label ++ ':' :: (' ' :: (text ".space" ++ ' ' :: count)) := by simp [text]
  have hafter : afterKeyword (text ".space") (' ' :: (text ".space" ++ ' ' :: count)) =
      some count := afterKeyword_append rfl (tight_of_isTok (isTok_of_isNatText hcount))
  rw [recognizeSpace_eq, takeLabel_eq_some.mpr ⟨hline, hid⟩]
  simp only [Option.bind_some, hafter, hlower, hcount, if_true]

theorem recognizeWord_of_values {label : Text} {values : List Text}
    (hlabel : isLabelName label = true) (hne : values ≠ [])
    (hvalues : ∀ v ∈ values, isIntText v = true) :
    recognizeWord (label ++ (text ": .word " ++ commaList values)) =
      some (.wordLine label (values.map intValue)) := by
  obtain ⟨hid, hlower⟩ := isLabelName_iff.mp hlabel
  have htok : ∀ v ∈ values, isTok v = true := fun v hv => isTok_of_isIntText (hvalues v hv)
  have hline : label ++ (text ": .word " ++ commaList values) =
      label ++ ':' :: (' ' :: (text ".word" ++ ' ' :: commaList values)) := by simp [text]
  have hafter : afterKeyword (text ".word") (' ' :: (text ".word" ++ ' ' :: commaList values)) =
      some (commaList values) := afterKeyword_append rfl (tight_commaList hne htok)
  rw [recognizeWord_eq, takeLabel_eq_some.mpr ⟨hline, hid⟩]
  simp only [Option.bind_some, hafter, sepList_commaList hne htok, hlower,
    List.all_eq_true.mpr hvalues, if_true]

theorem recognizeLabel_of_name {label : Text} (hlabel : isLabelName label = true) :
    recognizeLabel (label ++ text ":") = some (.labelLine label) := by
  obtain ⟨hid, hlower⟩ := isLabelName_iff.mp hlabel
  have hl : takeLabel (label ++ text ":") = some (label, []) :=
    takeLabel_eq_some.mpr ⟨by simp [text], hid⟩
  simp [recognizeLabel, hl, hlower]

/-- What follows the opcode in an operation's text (30_encoding.md R111). -/
def operandText (ops : List Operand) : Text :=
  if ops.isEmpty then [] else ' ' :: commaList (ops.map Operand.render)

theorem renderOperation_none (opcode : Text) (ops : List Operand) :
    renderOperation none opcode ops = opcode ++ operandText ops := rfl

theorem renderOperation_some (label opcode : Text) (ops : List Operand) :
    renderOperation (some label) opcode ops =
      label ++ ':' :: (' ' :: (opcode ++ operandText ops)) := by
  simp [renderOperation, operandText, text]

theorem operandText_of_ne_nil {ops : List Operand} (h : ops ≠ []) :
    operandText ops = ' ' :: commaList (ops.map Operand.render) := by
  simp [operandText, h]

theorem isTok_of_mem_map_render {ops : List Operand} (h : ∀ o ∈ ops, o.wf = true) :
    ∀ w ∈ ops.map Operand.render, isTok w = true :=
  List.forall_mem_map.mpr fun o ho => isTok_render (h o ho)

theorem operandTokens_operandText {ops : List Operand} (hlen : ops.length ≤ 3)
    (h : ∀ o ∈ ops, o.wf = true) :
    operandTokens (operandText ops) = some (ops.map Operand.render) := by
  by_cases hnil : ops = []
  · subst hnil; rfl
  · have htok := isTok_of_mem_map_render h
    have hne : ops.map Operand.render ≠ [] := by simpa using hnil
    simpa [operandText_of_ne_nil hnil, operandTokens, takeWs_of_tight (tight_commaList hne htok),
      sepList_commaList hne htok, hlen] using htok

/-- The word before the operands is the opcode. -/
theorem span_opcode {opcode : Text} (h : isOpc opcode = true) (ops : List Operand) :
    (opcode ++ operandText ops).takeWhile isWordChar = opcode ∧
      (opcode ++ operandText ops).dropWhile isWordChar = operandText ops := by
  have hword : ∀ c ∈ opcode, isWordChar c = true := fun c =>
    isWordChar_of_mem_ident (isIdent_of_isOpc h)
  have hspace : isWordChar ' ' = false := rfl
  rw [List.takeWhile_append_of_pos hword, List.dropWhile_append_of_pos hword]
  by_cases hnil : ops = []
  · simp [hnil, operandText]
  · simp [operandText_of_ne_nil hnil, hspace]

theorem recognizeOperation_of_operands {mnemonics : List Text} {opcode : Text} {ops : List Operand}
    (hopcode : isOpcodeName opcode = true) (hlen : ops.length ≤ 3) (hops : ∀ o ∈ ops, o.wf = true)
    (label : Option Text) :
    recognizeOperation mnemonics label (opcode ++ operandText ops) =
      some (operationOf mnemonics label opcode ops) := by
  obtain ⟨hopc, hlower⟩ := isOpcodeName_iff.mp hopcode
  obtain ⟨htake, hdrop⟩ := span_opcode hopc ops
  have hclassify : (ops.map Operand.render).map classify = ops := by
    rw [List.map_map]
    exact (List.map_congr_left fun o ho => classify_render (hops o ho)).trans (List.map_id ops)
  simp only [recognizeOperation, htake, hdrop, hopc, if_true, operandTokens_operandText hlen hops,
    Option.map_some, hlower, hclassify]

theorem tight_opcode_operandText {opcode : Text} {ops : List Operand} (hopc : isOpc opcode = true)
    (hops : ∀ o ∈ ops, o.wf = true) : Tight (opcode ++ operandText ops) := by
  have hopcode : Tight opcode := tight_of_isTok (isTok_of_isIdent (isIdent_of_isOpc hopc))
  by_cases hnil : ops = []
  · simpa [hnil, operandText] using hopcode
  · have hne : ops.map Operand.render ≠ [] := by simpa using hnil
    rw [operandText_of_ne_nil hnil]
    exact hopcode.append [' '] (tight_commaList hne (isTok_of_mem_map_render hops))

theorem tight_renderOperation {label : Option Text} {opcode : Text} {ops : List Operand}
    (hlabel : label.all isLabelName = true) (hopc : isOpc opcode = true)
    (hops : ∀ o ∈ ops, o.wf = true) : Tight (renderOperation label opcode ops) := by
  have htext := tight_opcode_operandText hopc hops
  cases label with
  | none => exact htext
  | some l =>
    obtain ⟨hid, -⟩ := isLabelName_iff.mp hlabel
    rw [renderOperation_some]
    exact (tight_of_isTok (isTok_of_isIdent hid)).append [':', ' '] htext

/-- The sixth recognizer reads an operation's text, labelled or not. -/
theorem recognizeGeneric_renderOperation {mnemonics : List Text} {label : Option Text}
    {opcode : Text} {ops : List Operand} (hopcode : isOpcodeName opcode = true)
    (hops : operationWf label ops = true) :
    recognizeGeneric mnemonics (renderOperation label opcode ops) =
      some (operationOf mnemonics label opcode ops) := by
  obtain ⟨hlabel, hlen, hwf⟩ := operationWf_iff.mp hops
  obtain ⟨hopc, -⟩ := isOpcodeName_iff.mp hopcode
  have hread := recognizeOperation_of_operands (mnemonics := mnemonics) hopcode hlen hwf label
  cases label with
  | none =>
    obtain ⟨-, hdrop⟩ := span_opcode hopc ops
    have hnone : takeLabel (opcode ++ operandText ops) = none := takeLabel_eq_none (by
      rw [hdrop, operandText]
      split
      · exact nofun
      · exact nofun)
    rw [renderOperation_none, recognizeGeneric, hnone]
    exact hread
  | some l =>
    obtain ⟨hid, hlower⟩ := isLabelName_iff.mp hlabel
    have hblank : (' ' :: (opcode ++ operandText ops)).dropWhile isBlank =
        opcode ++ operandText ops := dropWhile_isBlank_of_tight (tight_opcode_operandText hopc hwf)
    rw [renderOperation_some, recognizeGeneric, takeLabel_eq_some.mpr ⟨rfl, hid⟩]
    simp only [hblank, hlower, hread]

/-! ### The round trip (30_encoding.md R111) -/

/-- A record's text is read back if any one recognizer reads it. -/
theorem parse_of_tight {mnemonics : List Text} {line : Text} {i : Instr} (hline : Tight line)
    (h : some i ∈ recognizerAnswers mnemonics line) : parse mnemonics line = .ok i :=
  parse_eq_ok.mpr ((trimBlanks_of_tight hline).symm ▸ h)

theorem parse_renderOperation {mnemonics : List Text} {label : Option Text} {opcode : Text}
    {ops : List Operand} (hopcode : isOpcodeName opcode = true)
    (hops : operationWf label ops = true) :
    parse mnemonics (renderOperation label opcode ops) =
      .ok (operationOf mnemonics label opcode ops) := by
  obtain ⟨hlabel, -, hwf⟩ := operationWf_iff.mp hops
  refine parse_of_tight (tight_renderOperation hlabel (isOpcodeName_iff.mp hopcode).1 hwf) ?_
  simp [recognizerAnswers, recognizeGeneric_renderOperation hopcode hops]

/-- An operation's text, its well-formedness and its op id, once for all of them. -/
theorem operation_record {mnemonics : List Text} {i : Instr} {id : Nat} {label : Option Text}
    {ops : List Operand} (h : i.operation? = some (id, label, ops)) :
    encode mnemonics i = renderOperation label (mnemonics[id]?.getD []) ops ∧
      i.wf mnemonics = operationWf label ops ∧
      (operations[id]?.map fun make => make label ops) = some i := by
  cases i <;> cases h <;> exact ⟨rfl, rfl, rfl⟩

theorem exists_name_of_sectionLine_wf {mnemonics : List Text} {keyword : Text}
    (h : (Instr.sectionLine keyword).wf mnemonics = true) :
    ∃ name, keyword = '.' :: name ∧ isLabelName name = true := by
  cases keyword with
  | nil => cases h
  | cons c name =>
    by_cases hc : c = '.'
    · subst hc
      exact ⟨name, rfl, h⟩
    · simp [Instr.wf, hc] at h

/-- A known mnemonic names its own operation: mnemonics differ, and each is an opcode word. -/
theorem exists_mnemonic {mnemonics : List Text} (hm : mnemonicsWf mnemonics = true) {id : Nat}
    {make : Option Text → List Operand → Instr} (hmake : operations[id]? = some make) :
    ∃ opcode, mnemonics[id]? = some opcode ∧ isOpcodeName opcode = true ∧
      ∀ label ops, operationOf mnemonics label opcode ops = make label ops := by
  obtain ⟨hlen, hnodup, hwords⟩ := mnemonicsWf_iff.mp hm
  obtain ⟨hid, -⟩ := List.getElem?_eq_some_iff.mp hmake
  have hlt : id < mnemonics.length := hlen ▸ hid
  have hplace : mnemonics.idxOf? mnemonics[id] = some id :=
    List.idxOf?_eq_some_iff.mpr ⟨hlt, rfl, fun j hj heq =>
      hj.ne ((hnodup.getElem_inj_iff).mp heq)⟩
  exact ⟨mnemonics[id], List.getElem?_eq_getElem hlt, hwords _ (List.getElem_mem hlt),
    operationOf_of_idxOf? hplace hmake⟩

theorem parse_encode_operation {mnemonics : List Text} (hm : mnemonicsWf mnemonics = true)
    {i : Instr} {id : Nat} {label : Option Text} {ops : List Operand}
    (hop : i.operation? = some (id, label, ops)) (hwf : i.wf mnemonics = true) :
    parse mnemonics (encode mnemonics i) = .ok i := by
  obtain ⟨hencode, hrecord, hback⟩ := operation_record (mnemonics := mnemonics) hop
  obtain ⟨make, hmake, hi⟩ := Option.map_eq_some_iff.mp hback
  obtain ⟨opcode, hopcode, hname, hof⟩ := exists_mnemonic hm hmake
  rw [hencode, hopcode, Option.getD_some, parse_renderOperation hname (hrecord ▸ hwf), hof, hi]

theorem tight_of_isLabelName {t : Text} (h : isLabelName t = true) : Tight t :=
  tight_of_isTok (isTok_of_isIdent (isLabelName_iff.mp h).1)

theorem parse_section {name : Text} (mnemonics : List Text) (h : isLabelName name = true) :
    parse mnemonics ('.' :: name) = .ok (.sectionLine ('.' :: name)) := by
  have hname := (isTok_iff.mp (isTok_of_isIdent (isLabelName_iff.mp h).1)).2
  have htok : isTok ('.' :: name) = true :=
    isTok_iff.mpr ⟨List.cons_ne_nil '.' name, List.forall_mem_cons.mpr ⟨rfl, hname⟩⟩
  exact parse_of_tight (tight_of_isTok htok)
    (by simp [recognizerAnswers, recognizeSection_of_name h])

theorem parse_space {label : Text} (mnemonics : List Text) (h : isLabelName label = true)
    (count : Nat) : parse mnemonics (encode mnemonics (.spaceLine label count)) =
      .ok (.spaceLine label count) := by
  obtain ⟨hnat, hvalue⟩ := decimalNat_spec count
  have hread := recognizeSpace_of_count h hnat
  rw [hvalue] at hread
  rw [encode, List.append_assoc]
  refine parse_of_tight ((tight_of_isLabelName h).append _ ?_) (by simp [recognizerAnswers, hread])
  exact tight_of_isTok (isTok_of_isNatText hnat)

theorem parse_word {label : Text} (mnemonics : List Text) (h : isLabelName label = true)
    {values : List Int} (hne : values ≠ []) :
    parse mnemonics (encode mnemonics (.wordLine label values)) = .ok (.wordLine label values) := by
  have hne' : values.map decimalInt ≠ [] := by simpa using hne
  have hint : ∀ t ∈ values.map decimalInt, isIntText t = true :=
    List.forall_mem_map.mpr fun v _ => (decimalInt_spec v).1
  have hback : (values.map decimalInt).map intValue = values := by
    rw [List.map_map]
    exact (List.map_congr_left fun v _ => (decimalInt_spec v).2).trans (List.map_id values)
  have hread := recognizeWord_of_values h hne' hint
  rw [hback] at hread
  rw [encode, List.append_assoc]
  refine parse_of_tight ((tight_of_isLabelName h).append _ ?_) (by simp [recognizerAnswers, hread])
  exact tight_commaList hne' fun t ht => isTok_of_isIntText (hint t ht)

theorem parse_label {label : Text} (mnemonics : List Text) (h : isLabelName label = true) :
    parse mnemonics (encode mnemonics (.labelLine label)) = .ok (.labelLine label) := by
  have hcolon : Tight (text ":") := ⟨⟨':', rfl, rfl⟩, ':', rfl, rfl⟩
  rw [encode]
  exact parse_of_tight ((tight_of_isLabelName h).append [] hcolon)
    (by simp [recognizerAnswers, recognizeLabel_of_name h])

/-- Settles O1: each kind of record is read back by the recognizer it is written for. -/
theorem decodeOfEncodeIsTheInstruction : Obligations.DecodeOfEncodeIsTheInstruction := by
  intro mnemonics i hm hwf
  cases hop : i.operation? with
  | some p => exact parse_encode_operation hm hop hwf
  | none =>
    cases i with
    | sectionLine keyword =>
      obtain ⟨name, rfl, hname⟩ := exists_name_of_sectionLine_wf hwf
      exact parse_section mnemonics hname
    | spaceLine label count => exact parse_space mnemonics hwf count
    | wordLine label values =>
      obtain ⟨hlabel, hne⟩ : isLabelName label = true ∧ values ≠ [] := by simpa [Instr.wf] using hwf
      exact parse_word mnemonics hlabel hne
    | labelLine label => exact parse_label mnemonics hwf
    | unknownOp label opcode ops =>
      obtain ⟨⟨hops, hopcode⟩, hnot⟩ : (operationWf label ops = true ∧ isOpcodeName opcode = true) ∧
          opcode ∉ mnemonics := by simpa [Instr.wf] using hwf
      exact (parse_renderOperation hopcode hops).trans
        (congrArg _ (operationOf_of_not_mem hnot label ops))
    | _ => cases hop

end Sys2Proof.Proofs
end

/-! ## Operands that do not fit their format: O31 -/

section
namespace Sys2Proof.Proofs

open Sys2Proof Sys2Proof.Machine

/-! ### The operand checks (30_encoding.md R106, 60_exceptions.md R310) -/

/-- A check that raises BadOperands exactly for the operand lists that do not fit the format, and
nothing else. -/
def ChecksFormat {α : Type} (check : List Operand → Except Fault α) (f : Format) : Prop :=
  ∀ ops e, check ops = .error e ↔ e = .badOperands ∧ formatFits f ops = false

theorem formatF0_checks : ChecksFormat formatF0 .f0 := by
  intro ops e
  unfold formatF0
  split <;> simp_all [formatFits, eq_comm]

theorem format1_checks {f : Format} (hf : f = .fr1 ∨ f = .fj) : ChecksFormat format1 f := by
  intro ops e
  unfold format1
  obtain rfl | rfl := hf <;> split <;> simp_all [formatFits, eq_comm]

theorem format2_checks {f : Format} (hf : f = .fr2 ∨ f = .frs2 ∨ f = .frl) :
    ChecksFormat format2 f := by
  intro ops e
  unfold format2
  obtain rfl | rfl | rfl := hf <;> split <;> simp_all [formatFits, eq_comm]

theorem format3_checks {f : Format} (hf : f = .fr3 ∨ f = .fb) : ChecksFormat format3 f := by
  intro ops e
  unfold format3
  obtain rfl | rfl := hf <;> split <;> simp_all [formatFits, eq_comm]

theorem formatFRI_checks : ChecksFormat formatFRI .fri := by
  intro ops e
  unfold formatFRI
  split <;> simp_all [formatFits, eq_comm]

theorem formatFI_checks : ChecksFormat formatFI .fi := by
  intro ops e
  unfold formatFI
  split <;> simp_all [formatFits, eq_comm]

theorem formatFM_checks : ChecksFormat formatFM .fm := by
  intro ops e
  unfold formatFM
  split <;> simp_all [formatFits, eq_comm]

/-! ### What comes after the check raises other errors -/

theorem readReg_ne_badOperands (s : State) (o : Operand) : readReg s o ≠ .error .badOperands :=
  fun h => nomatch readReg_error h

theorem writeReg_ne_badOperands (s : State) (o : Operand) (v : Int) :
    writeReg s o v ≠ .error .badOperands :=
  fun h => nomatch writeReg_error h

theorem memRead_ne_badOperands (s : State) (addr : Int) : memRead s addr ≠ .error .badOperands :=
  fun h => nomatch (memRead_error h).1

theorem memWrite_ne_badOperands (s : State) (addr v : Int) :
    memWrite s addr v ≠ .error .badOperands :=
  fun h => nomatch (memWrite_error h).1

theorem lookupLabel_ne_badOperands (m : LabelMap) (o : Operand) :
    lookupLabel m o ≠ .error .badOperands :=
  fun h => nomatch lookupLabel_error h

/-- An execution that ends with an answer raises nothing there. -/
theorem ok_ne_error {ε α : Type} (a : α) (e : ε) : Except.ok a ≠ .error e := nofun

/-- A sequence raises no error that neither of its parts raises. -/
theorem bind_ne_error {ε α β : Type} {x : Except ε α} {k : α → Except ε β} {e : ε}
    (hx : x ≠ .error e) (hk : ∀ a, k a ≠ .error e) : x.bind k ≠ .error e := fun h => by
  obtain h | ⟨a, -, h⟩ := bind_error.mp h
  · exact hx h
  · exact hk a h

theorem readReg_bind_ne {β : Type} (s : State) (o : Operand) {k : Int → Except Fault β}
    (hk : ∀ a, k a ≠ .error .badOperands) : (readReg s o).bind k ≠ .error .badOperands :=
  bind_ne_error (readReg_ne_badOperands s o) hk

/-- An execution that starts with its check raises BadOperands exactly when the check fails. -/
theorem ChecksFormat.bind {α β : Type} {check : List Operand → Except Fault α} {f : Format}
    (hcheck : ChecksFormat check f) {k : α → Except Fault β} (hk : ∀ p, k p ≠ .error .badOperands)
    (ops : List Operand) :
    (check ops).bind k = .error .badOperands ↔ formatFits f ops = false := by
  simp [bind_error, hcheck ops, hk]

/-! ### The units' executions -/

theorem alu3_badOperands {g : Int → Int → Except Fault Int}
    (hg : ∀ a b, g a b ≠ .error .badOperands) (ops : List Operand) (s : State) :
    alu3 g ops s = .error .badOperands ↔ formatFits .fr3 ops = false :=
  (format3_checks (.inl rfl)).bind
    (fun _ => readReg_bind_ne s _ fun _ => readReg_bind_ne s _ fun _ =>
      bind_ne_error (hg _ _) fun _ => writeReg_ne_badOperands s _ _) ops

theorem aluImm_badOperands (g : Int → Int → Int) (ops : List Operand) (s : State) :
    aluImm g ops s = .error .badOperands ↔ formatFits .fi ops = false :=
  formatFI_checks.bind (fun _ => readReg_bind_ne s _ fun _ => writeReg_ne_badOperands s _ _) ops

theorem unary_badOperands (g : Int → Int) (ops : List Operand) (s : State) :
    unary g ops s = .error .badOperands ↔ formatFits .fr2 ops = false :=
  (format2_checks (.inl rfl)).bind
    (fun _ => readReg_bind_ne s _ fun _ => writeReg_ne_badOperands s _ _) ops

theorem printArg_badOperands (event : Int → Event) (ops : List Operand) (s : State) :
    printArg event ops s = .error .badOperands ↔ formatFits .f0 ops = false :=
  formatF0_checks.bind (fun _ => readReg_bind_ne s _ fun _ => ok_ne_error _ _) ops

theorem readInput_badOperands (answer : Nat → Int) (ops : List Operand) (s : State) :
    readInput answer ops s = .error .badOperands ↔ formatFits .f0 ops = false := by
  refine formatF0_checks.bind (fun _ => ?_) ops
  split
  · exact nofun
  · exact bind_ne_error (writeReg_ne_badOperands s _ _) fun _ => ok_ne_error _ _

theorem compareRegs_badOperands (g : Int → Int → Bool) (ops : List Operand) (s : State) :
    compareRegs g ops s = .error .badOperands ↔ formatFits .fb ops = false :=
  (format3_checks (.inr rfl)).bind
    (fun _ => readReg_bind_ne s _ fun _ => readReg_bind_ne s _ fun _ => ok_ne_error _ _) ops

theorem alwaysTaken_badOperands (ops : List Operand) :
    alwaysTaken ops = .error .badOperands ↔ formatFits .fj ops = false :=
  (format1_checks (.inr rfl)).bind (fun _ => ok_ne_error _ _) ops

/-- A branch step adds UnknownLabel to its execution's errors, not BadOperands. -/
theorem branchStep_badOperands {x : Except Fault (Bool × Operand)} {s : State} :
    branchStep x s = .fault .badOperands ↔ x = .error .badOperands := by
  constructor
  · intro h
    obtain hx | ⟨target, -, he⟩ := branchStep_fault h
    · exact hx
    · cases he
  · rintro rfl
    rfl

theorem execExit_badOperands (ops : List Operand) (s : State) :
    execExit ops s = .fault .badOperands ↔ formatFits .f0 ops = false := by
  have hcheck := formatF0_checks ops .badOperands
  unfold execExit
  cases h : formatF0 ops with
  | ok u => simpa [raise, h] using hcheck
  | error e => simpa [raise, h] using hcheck

/-- Settles O31: every operation starts with its check, and the rest of it raises other errors. -/
theorem badOperandsExactlyWhenTheFormatFails :
    Obligations.BadOperandsExactlyWhenTheFormatFails := by
  intro i s id l ops f hop hf
  cases i with
  | sectionLine _ | spaceLine _ _ | wordLine _ _ | labelLine _ | unknownOp _ _ _ => cases hop
  | nop =>
    cases hop; cases hf
    exact complete_fault.trans (formatF0_checks.bind (fun _ => ok_ne_error _ _) _)
  | add | sub | and | or | xor | slt | sllv | srlv | srav =>
    cases hop; cases hf
    exact complete_fault.trans (alu3_badOperands (fun _ _ => ok_ne_error _ _) _ s)
  | div =>
    cases hop; cases hf
    refine complete_fault.trans (alu3_badOperands (fun a b => ?_) _ s)
    split
    · exact nofun
    · exact nofun
  | addi | andi | ori | xori | slti | sll | srl | sra =>
    cases hop; cases hf
    exact complete_fault.trans (aluImm_badOperands _ _ s)
  | not | move =>
    cases hop; cases hf
    exact complete_fault.trans (unary_badOperands _ _ s)
  | mult =>
    cases hop; cases hf
    exact complete_fault.trans ((format2_checks (.inr (.inl rfl))).bind
      (fun _ => readReg_bind_ne s _ fun _ => readReg_bind_ne s _ fun _ => ok_ne_error _ _) _)
  | lw =>
    cases hop; cases hf
    exact complete_fault.trans (formatFM_checks.bind (fun _ => readReg_bind_ne s _ fun _ =>
      bind_ne_error (memRead_ne_badOperands s _) fun _ => writeReg_ne_badOperands s _ _) _)
  | sw =>
    cases hop; cases hf
    exact complete_fault.trans (formatFM_checks.bind (fun _ => readReg_bind_ne s _ fun _ =>
      readReg_bind_ne s _ fun _ => memWrite_ne_badOperands s _ _) _)
  | li | lui =>
    cases hop; cases hf
    exact complete_fault.trans (formatFRI_checks.bind (fun _ => writeReg_ne_badOperands s _ _) _)
  | la =>
    cases hop; cases hf
    exact complete_fault.trans ((format2_checks (.inr (.inr rfl))).bind (fun _ =>
      bind_ne_error (lookupLabel_ne_badOperands _ _) fun _ => writeReg_ne_badOperands s _ _) _)
  | mfhi | mflo =>
    cases hop; cases hf
    exact complete_fault.trans
      ((format1_checks (.inl rfl)).bind (fun _ => writeReg_ne_badOperands s _ _) _)
  | mthi | mtlo =>
    cases hop; cases hf
    exact complete_fault.trans
      ((format1_checks (.inl rfl)).bind (fun _ => readReg_bind_ne s _ fun _ => ok_ne_error _ _) _)
  | beq | bne | bgt | bge | blt | ble =>
    cases hop; cases hf
    exact branchStep_badOperands.trans (compareRegs_badOperands _ _ s)
  | j =>
    cases hop; cases hf
    exact branchStep_badOperands.trans (alwaysTaken_badOperands _)
  | printInt | printChar =>
    cases hop; cases hf
    exact complete_fault.trans (printArg_badOperands _ _ s)
  | readInt | readChar =>
    cases hop; cases hf
    exact complete_fault.trans (readInput_badOperands _ _ s)
  | exit =>
    cases hop; cases hf
    exact execExit_badOperands _ s

end Sys2Proof.Proofs
end

/-! ## The opcode table and the sample lines: O5, O6 -/

section
namespace Sys2Proof.Proofs

open Sys2Proof Sys2Proof.Machine

/-- The line that stands for a known operation is read as that operation (30_encoding.md R105). -/
theorem selector_of_operation_line : ∀ id < 43,
    (decodeTableWord 16 (0x0C0 + id)).map Instr.selector = some (0x0C0 + id) := by
  decide +kernel

/-- The rows of the table that number no operation with a mnemonic. -/
theorem selector_of_other_line : ∀ w ∈ [0x000, 0x040, 0x041, 0x080, 0x0FF],
    (decodeTableWord 16 w).map Instr.selector = some w := by
  decide +kernel

/-- No line stands for a selector outside the table. -/
theorem selectorLine_eq_none {w : Nat} (hother : w ∉ [0x000, 0x040, 0x041, 0x080, 0x0FF])
    (hop : ¬ (0x0C0 ≤ w ∧ w ≤ 0x0EA)) : selectorLine w = none := by
  simp only [List.mem_cons, List.not_mem_nil, or_false, not_or] at hother
  obtain ⟨h0, h1, h2, h3, h4⟩ := hother
  by_cases hlow : 0x0C0 ≤ w
  · have hlength : Config.referenceMnemonics.length = 43 := rfl
    have hnone : Config.referenceMnemonics[w - 0x0C0]? = none :=
      List.getElem?_eq_none (by omega)
    simp [selectorLine, h0, h1, h2, h3, h4, hnone]
  · simp [selectorLine, h0, h1, h2, h3, h4, hlow]

/-- Settles O5: the rows of the operations, the other rows, and the selectors that are no row. -/
theorem selectorsNumberTheOpcodeTable : Obligations.SelectorsNumberTheOpcodeTable := by
  intro w hw
  by_cases hop : 0x0C0 ≤ w ∧ w ≤ 0x0EA
  · obtain ⟨id, rfl⟩ := Nat.exists_eq_add_of_le hop.1
    rw [selector_of_operation_line id (by omega), if_pos (by omega)]
  · by_cases hother : w ∈ [0x000, 0x040, 0x041, 0x080, 0x0FF]
    · rw [selector_of_other_line w hother, if_pos (by simpa [or_assoc, hop] using hother)]
    · have hline : selectorLine (w % 2 ^ 16 % 512) = none := by
        rw [Nat.mod_eq_of_lt (by omega : w < 2 ^ 16), Nat.mod_eq_of_lt hw]
        exact selectorLine_eq_none hother hop
      rw [decodeTableWord, hline, if_neg (by simpa [or_assoc, hop] using hother)]
      rfl

/-- Settles O6, by running the decoder on the lines. -/
theorem sampleLinesDecodeToTheirRecords : Obligations.SampleLinesDecodeToTheirRecords := by
  unfold Obligations.SampleLinesDecodeToTheirRecords
  decide +kernel

end Sys2Proof.Proofs
end

/-! ## The lines that call no unit: O30 -/

section
namespace Sys2Proof.Proofs

open Sys2Proof Sys2Proof.Machine

/-- The one write of a line that only completes (46_cpu.md R276, R277). -/
theorem advance_eq (s : State) : s.advance = { s with pc := wrap s.cfg.xlen (s.pc + 1) } := rfl

/-- `nop` checks its operands and then completes (40_lines_and_nop.md R144). -/
theorem exec_nop (l : Option Text) (ops : List Operand) (s : State) :
    exec (.nop l ops) s = complete ((formatF0 ops).bind fun _ => .ok s) := rfl

/-- Without operands the check passes, and `nop` is stepped over like the other lines. -/
theorem exec_nop_nil (l : Option Text) (s : State) : exec (.nop l []) s = .next s.advance := by
  rw [exec_nop, formatF0_ok (u := ()) |>.mpr rfl, ok_bind, complete_ok]

/-- Settles O30: the dispatch completes the first four lines at once and `nop` after its check. -/
theorem nonOperationLinesOnlyAdvance : Obligations.NonOperationLinesOnlyAdvance := by
  intro s keyword label l count values
  rw [exec_nop_nil, ← advance_eq]
  exact ⟨complete_ok s, complete_ok s, complete_ok s, complete_ok s, rfl⟩

end Sys2Proof.Proofs
end

/-! ## The Arithmetic/Logic Unit: O11 to O17, O36 -/

section
namespace Sys2Proof.Proofs

open Sys2Proof Sys2Proof.Machine

/-! ### Values modulo `2 ^ XLEN`

A register write wraps, so a result matters only modulo `2 ^ XLEN` (00_scope.md R12): each operation
is compared with its plain meaning up to this congruence. -/

theorem wrap_modEq (n : Nat) (v : Int) : wrap n v ≡ v [ZMOD 2 ^ n] :=
  (Int.modEq_iff_dvd.mpr (two_pow_dvd_wrap_sub n v)).symm

/-- Congruent values are written alike. -/
theorem wrap_congr {n : Nat} {v w : Int} (h : v ≡ w [ZMOD 2 ^ n]) : wrap n v = wrap n w := by
  have hsub : (v - minVal n) % 2 ^ n = (w - minVal n) % 2 ^ n := h.sub_right (minVal n)
  rw [wrap, wrap, pow2_eq_two_pow, hsub]

theorem put_congr {s : State} (o : Operand) {v w : Int} (h : v ≡ w [ZMOD 2 ^ s.cfg.xlen]) :
    s.put o v = s.put o w := by
  unfold State.put
  rw [wrap_congr h]

/-! ### Patterns (00_scope.md R13) -/

/-- The unsigned value of a value's pattern. -/
theorem toNat_ofInt_eq_ubits (n : Nat) (v : Int) : (BitVec.ofInt n v).toNat = ubits n v :=
  BitVec.toNat_ofInt v

theorem ubits_lt (n : Nat) (v : Int) : ubits n v < 2 ^ n :=
  toNat_ofInt_eq_ubits n v ▸ (BitVec.ofInt n v).isLt

theorem ubits_modEq (n : Nat) (v : Int) : (ubits n v : Int) ≡ v [ZMOD 2 ^ n] := by
  have hnonneg := Int.emod_nonneg v (pow2_pos n).ne'
  rw [ubits, Int.toNat_of_nonneg hnonneg, pow2_eq_two_pow]
  exact Int.mod_modEq v _

/-- A wrapped immediate has the pattern of the literal (30_encoding.md R107). -/
theorem ofInt_wrap (n : Nat) (v : Int) : BitVec.ofInt n (wrap n v) = BitVec.ofInt n v := by
  have hmod : wrap n v % 2 ^ n = v % 2 ^ n := wrap_modEq n v
  apply BitVec.eq_of_toNat_eq
  rw [toNat_ofInt_eq_ubits, toNat_ofInt_eq_ubits, ubits, ubits, pow2_eq_two_pow, hmod]

/-- The signed value of a pattern, as the model and as Lean computes it. -/
theorem sbits_toNat_modEq {n : Nat} (x : BitVec n) : sbits n x.toNat ≡ x.toInt [ZMOD 2 ^ n] := by
  have hbmod : x.toInt ≡ x.toNat [ZMOD (2 ^ n : Nat)] := by
    rw [BitVec.toInt_eq_toNat_bmod]
    exact Int.bmod_emod
  exact (wrap_modEq n _).trans (by simpa using hbmod.symm)

theorem andBits_modEq (n : Nat) (a b : Int) :
    andBits n a b ≡ (BitVec.ofInt n a &&& BitVec.ofInt n b).toInt [ZMOD 2 ^ n] := by
  rw [andBits, ← toNat_ofInt_eq_ubits, ← toNat_ofInt_eq_ubits, ← BitVec.toNat_and]
  exact sbits_toNat_modEq _

theorem orBits_modEq (n : Nat) (a b : Int) :
    orBits n a b ≡ (BitVec.ofInt n a ||| BitVec.ofInt n b).toInt [ZMOD 2 ^ n] := by
  rw [orBits, ← toNat_ofInt_eq_ubits, ← toNat_ofInt_eq_ubits, ← BitVec.toNat_or]
  exact sbits_toNat_modEq _

theorem xorBits_modEq (n : Nat) (a b : Int) :
    xorBits n a b ≡ (BitVec.ofInt n a ^^^ BitVec.ofInt n b).toInt [ZMOD 2 ^ n] := by
  rw [xorBits, ← toNat_ofInt_eq_ubits, ← toNat_ofInt_eq_ubits, ← BitVec.toNat_xor]
  exact sbits_toNat_modEq _

/-- Inverting every bit of a pattern negates the value and takes 1 away (41_alu.md R158). -/
theorem notBits_modEq (n : Nat) (a : Int) : notBits n a ≡ -a - 1 [ZMOD 2 ^ n] := by
  have hcast : ((2 ^ n - 1 - ubits n a : Nat) : Int) = 2 ^ n * 1 + (-(ubits n a : Int) - 1) := by
    have hlt := ubits_lt n a
    have hpow : ((2 ^ n : Nat) : Int) = 2 ^ n := Nat.cast_pow 2 n
    omega
  calc notBits n a
      ≡ ((2 ^ n - 1 - ubits n a : Nat) : Int) [ZMOD 2 ^ n] := wrap_modEq n _
    _ ≡ -(ubits n a : Int) - 1 [ZMOD 2 ^ n] := by rw [hcast]; simp [Int.ModEq]
    _ ≡ -a - 1 [ZMOD 2 ^ n] := (ubits_modEq n a).neg.sub_right 1

/-! ### Shifts (41_alu.md R160 to R162) -/

theorem shiftLeft_modEq (n : Nat) (a k : Int) :
    shiftLeft n a k ≡ a * 2 ^ (k % n).toNat [ZMOD 2 ^ n] := by
  rw [shiftLeft, pow2_eq_two_pow]
  exact (ubits_modEq n a).mul_right _

theorem shiftRightLogical_modEq (n : Nat) (a k : Int) :
    shiftRightLogical n a k ≡ (BitVec.ofInt n a >>> (k % n).toNat).toInt [ZMOD 2 ^ n] := by
  rw [shiftRightLogical, ← toNat_ofInt_eq_ubits, ← Nat.shiftRight_eq_div_pow,
    ← BitVec.toNat_ushiftRight]
  exact sbits_toNat_modEq _

/-- Rounding down a quotient by a power of two is the shift that copies the sign. -/
theorem shiftRightArith_eq (n : Nat) (a k : Int) :
    shiftRightArith n a k = a >>> (k % n).toNat := by
  rw [Int.shiftRight_eq_div_pow]
  exact Int.fdiv_eq_ediv_of_nonneg a (pow2_pos _).le

/-! ### Completed lines

What the units' shared operations do when the operands name registers: the result goes to the
destination, and any value congruent to it describes the state after (41_alu.md R150). -/

/-- A write through an operand that names a register (10_state.md R22 to R24). -/
theorem writeReg_eq_put {s : State} {o : Operand} (h : namesRegister s.cfg o = true) (v : Int) :
    writeReg s o v = .ok (s.put o v) :=
  ((registerAccessIsByNameAndFramed s o v).1 h).1

theorem complete_alu3 {f : Int → Int → Except Fault Int} {s : State} {rd rs rt : Operand}
    {a b v w : Int} (hd : namesRegister s.cfg rd = true) (ha : readReg s rs = .ok a)
    (hb : readReg s rt = .ok b) (hf : f a b = .ok v) (hvw : v ≡ w [ZMOD 2 ^ s.cfg.xlen]) :
    complete (alu3 f [rd, rs, rt] s) = .next (s.put rd w).advance := by
  simp [alu3, format3, ha, hb, hf, writeReg_eq_put hd, put_congr rd hvw]

theorem complete_alu3_fault {f : Int → Int → Except Fault Int} {s : State} (rd : Operand)
    {rs rt : Operand} {a b : Int} {e : Fault} (ha : readReg s rs = .ok a)
    (hb : readReg s rt = .ok b) (hf : f a b = .error e) :
    complete (alu3 f [rd, rs, rt] s) = .fault e := by
  simp [alu3, format3, ha, hb, hf]

theorem complete_aluImm {f : Int → Int → Int} {s : State} {rd rs : Operand} {k a w : Int}
    (hd : namesRegister s.cfg rd = true) (ha : readReg s rs = .ok a)
    (hvw : f a (wrap s.cfg.xlen k) ≡ w [ZMOD 2 ^ s.cfg.xlen]) :
    complete (aluImm f [rd, rs, .int k] s) = .next (s.put rd w).advance := by
  simp [aluImm, formatFI, imm, ha, writeReg_eq_put hd, put_congr rd hvw]

theorem complete_unary {f : Int → Int} {s : State} {rd rs : Operand} {a w : Int}
    (hd : namesRegister s.cfg rd = true) (ha : readReg s rs = .ok a)
    (hvw : f a ≡ w [ZMOD 2 ^ s.cfg.xlen]) :
    complete (unary f [rd, rs] s) = .next (s.put rd w).advance := by
  simp [unary, format2, ha, writeReg_eq_put hd, put_congr rd hvw]

/-- Settles O11: the sums are the operations' own; `addi`'s immediate is congruent to its wrap. -/
theorem addSubAddiWriteTheSum : Obligations.AddSubAddiWriteTheSum := by
  intro s l rd rs rt a b k hd ha hb
  exact ⟨complete_alu3 hd ha hb rfl .rfl, complete_alu3 hd ha hb rfl .rfl,
    complete_aluImm hd ha ((wrap_modEq _ k).add_left a)⟩

/-- Settles O12: each pattern operation is Lean's on bit vectors, modulo the wrap of the write. -/
theorem bitwiseInstructionsActOnPatterns : Obligations.BitwiseInstructionsActOnPatterns := by
  intro s l rd rs rt a b k hd ha hb
  rw [← ofInt_wrap s.cfg.xlen k]
  exact ⟨complete_alu3 hd ha hb rfl (andBits_modEq _ a b),
    complete_alu3 hd ha hb rfl (orBits_modEq _ a b),
    complete_alu3 hd ha hb rfl (xorBits_modEq _ a b),
    complete_unary hd ha (notBits_modEq _ a),
    complete_aluImm hd ha (andBits_modEq _ a _),
    complete_aluImm hd ha (orBits_modEq _ a _),
    complete_aluImm hd ha (xorBits_modEq _ a _)⟩

/-- Settles O13, by the three shift laws. -/
theorem registerShiftsReduceTheAmount : Obligations.RegisterShiftsReduceTheAmount := by
  intro s l rd rs rt a b hd ha hb
  rw [← shiftRightArith_eq]
  exact ⟨complete_alu3 hd ha hb rfl (shiftLeft_modEq _ a b),
    complete_alu3 hd ha hb rfl (shiftRightLogical_modEq _ a b),
    complete_alu3 hd ha hb rfl .rfl⟩

/-- Settles O14, by the same laws at the wrapped immediate. -/
theorem immediateShiftsReduceTheAmount : Obligations.ImmediateShiftsReduceTheAmount := by
  intro s l rd rs a k hd ha
  rw [← shiftRightArith_eq]
  exact ⟨complete_aluImm hd ha (shiftLeft_modEq _ a _),
    complete_aluImm hd ha (shiftRightLogical_modEq _ a _),
    complete_aluImm hd ha .rfl⟩

/-- Settles O15: the comparison is the model's own `setLess`. -/
theorem setLessComparesSigned : Obligations.SetLessComparesSigned := by
  intro s l rd rs rt a b k hd ha hb
  exact ⟨complete_alu3 hd ha hb rfl .rfl, complete_aluImm hd ha .rfl⟩

/-! ### `mult` (41_alu.md R153) -/

/-- The value of a register lies in the signed range. -/
theorem readReg_inRange {s : State} {o : Operand} {a : Int} (h : s.wf = true)
    (ha : readReg s o = .ok a) : inRange s.cfg a = true := by
  obtain ⟨hc, hregs, -⟩ := state_wf_iff.mp h
  obtain ⟨hlen, hall, -⟩ := registersWf_iff.mp hregs
  obtain ⟨name, -, ⟨-, rfl⟩ | ⟨-, k, hk, rfl⟩⟩ := readReg_ok ha
  · have hpos := pow2_pos (s.cfg.xlen - 1)
    exact inRange_iff.mpr (by unfold minVal maxVal; omega)
  · have hlt : k < s.regs.length := hlen ▸ regIndex_lt hk
    rw [List.getD_eq_getElem _ _ hlt]
    exact hall _ (List.getElem_mem hlt)

/-- The upper half of a product of two values in the signed range lies in the range. -/
theorem productHigh_mem_range {n : Nat} (hn : 2 ≤ n) {a b : Int} (hamin : minVal n ≤ a)
    (hamax : a ≤ maxVal n) (hbmin : minVal n ≤ b) (hbmax : b ≤ maxVal n) :
    minVal n ≤ productHigh n a b ∧ productHigh n a b ≤ maxVal n := by
  have hhalf : pow2 n = 2 * pow2 (n - 1) := pow2_succ n (by omega)
  have hquarter : pow2 (n - 1) = 2 * pow2 (n - 2) := pow2_succ (n - 1) (by omega)
  have hpos := pow2_pos (n - 2)
  have habs : |a * b| ≤ pow2 (n - 1) * pow2 (n - 1) := by
    rw [abs_mul]
    unfold minVal maxVal at *
    exact mul_le_mul (abs_le.mpr ⟨by omega, by omega⟩) (abs_le.mpr ⟨by omega, by omega⟩)
      (abs_nonneg b) (pow2_pos _).le
  obtain ⟨hlow, hhigh⟩ := abs_le.mp habs
  have hquot : productHigh n a b = a * b / pow2 n := Int.fdiv_eq_ediv_of_nonneg _ (pow2_pos n).le
  have hsquare : pow2 (n - 1) * pow2 (n - 1) = pow2 (n - 2) * pow2 n := by
    rw [hhalf, hquarter]
    ring
  have hge : -pow2 (n - 2) ≤ a * b / pow2 n :=
    (Int.le_ediv_iff_mul_le (pow2_pos n)).mpr (by linarith)
  have hle : a * b / pow2 n ≤ pow2 (n - 2) :=
    Int.ediv_le_of_le_mul (pow2_pos n) (by linarith)
  rw [hquot]
  unfold minVal maxVal
  omega

/-- The two halves make up the exact product. -/
theorem productHigh_mul_add_productLow (n : Nat) (a b : Int) :
    productHigh n a b * 2 ^ n + productLow n a b = a * b := by
  rw [productHigh, productLow, fdiv, Int.fdiv_eq_ediv_of_nonneg _ (pow2_pos n).le,
    ← pow2_eq_two_pow]
  exact Int.ediv_mul_add_emod _ _

theorem exec_mult {s : State} {rs rt : Operand} {a b : Int} (l : Option Text)
    (ha : readReg s rs = .ok a) (hb : readReg s rt = .ok b) :
    exec (.mult l [rs, rt]) s = .next
      ((s.setHi (productHigh s.cfg.xlen a b)).setLo (productLow s.cfg.xlen a b)).advance := by
  simp [exec, execMult, format2, ha, hb]

/-- Settles O16: the high half is in range as it is; the low half keeps its residue in the wrap. -/
theorem multSplitsTheExactProduct : Obligations.MultSplitsTheExactProduct := by
  intro s l rs rt a b hs ha hb
  have hn : 2 ≤ s.cfg.xlen := two_le_xlen_of_valid (state_wf_iff.mp hs).1
  obtain ⟨hamin, hamax⟩ := inRange_iff.mp (readReg_inRange hs ha)
  obtain ⟨hbmin, hbmax⟩ := inRange_iff.mp (readReg_inRange hs hb)
  obtain ⟨hmin, hmax⟩ := productHigh_mem_range hn hamin hamax hbmin hbmax
  have hn1 : 1 ≤ s.cfg.xlen := by omega
  obtain ⟨lmin, lmax⟩ := wrap_mem_range hn1 (productLow s.cfg.xlen a b)
  have hhigh : wrap s.cfg.xlen (productHigh s.cfg.xlen a b) = productHigh s.cfg.xlen a b :=
    wrap_of_range hn1 hmin hmax
  have hlow : wrap s.cfg.xlen (productLow s.cfg.xlen a b) % 2 ^ s.cfg.xlen =
      productLow s.cfg.xlen a b := by
    have hwrap : wrap s.cfg.xlen (productLow s.cfg.xlen a b) % 2 ^ s.cfg.xlen =
        productLow s.cfg.xlen a b % 2 ^ s.cfg.xlen := wrap_modEq _ _
    rw [hwrap, productLow, pow2_eq_two_pow, Int.emod_emod]
  refine ⟨productHigh s.cfg.xlen a b, _, ?_, hmin, hmax, lmin, lmax, ?_⟩
  · rw [exec_mult l ha hb, State.setHi, hhigh]
    rfl
  · rw [hlow, productHigh_mul_add_productLow]

/-! ### `div` (41_alu.md R154) -/

/-- A remainder that is 0 or strictly between 0 and the divisor. -/
theorem fmod_between (a : Int) {b : Int} (hb : b ≠ 0) :
    (0 ≤ a.fmod b ∧ a.fmod b < b) ∨ (b < a.fmod b ∧ a.fmod b ≤ 0) := by
  obtain hneg | hpos := lt_or_gt_of_ne hb
  · have hnonneg := Int.fmod_nonneg_of_pos (-a) (Int.neg_pos_of_neg hneg)
    have hlt := Int.fmod_lt_of_pos (-a) (Int.neg_pos_of_neg hneg)
    rw [Int.neg_fmod_neg] at hnonneg hlt
    omega
  · exact .inl ⟨Int.fmod_nonneg_of_pos a hpos, Int.fmod_lt_of_pos a hpos⟩

/-- Rounded down, the remainder is smaller than the divisor and has its sign. -/
theorem floor_remainder (a : Int) {b : Int} (hb : b ≠ 0) :
    (a.fmod b).natAbs < b.natAbs ∧ (a.fmod b = 0 ∨ (a.fmod b).sign = b.sign) := by
  obtain ⟨hge, hlt⟩ | ⟨hgt, hle⟩ := fmod_between a hb
  · refine ⟨by omega, (eq_or_lt_of_le hge).imp Eq.symm fun hpos => ?_⟩
    rw [Int.sign_eq_one_of_pos hpos, Int.sign_eq_one_of_pos (hpos.trans hlt)]
  · refine ⟨by omega, (eq_or_lt_of_le hle).imp_right fun hneg => ?_⟩
    rw [Int.sign_eq_neg_one_of_neg hneg, Int.sign_eq_neg_one_of_neg (hgt.trans hneg)]

/-- Rounded toward zero, the remainder is smaller than the divisor and has the dividend's sign. -/
theorem trunc_remainder (a : Int) {b : Int} (hb : b ≠ 0) :
    (a.tmod b).natAbs < b.natAbs ∧ (a.tmod b = 0 ∨ (a.tmod b).sign = a.sign) := by
  constructor
  · rw [Int.natAbs_tmod]
    exact Nat.mod_lt _ (Int.natAbs_pos.mpr hb)
  · by_cases hdvd : b ∣ a
    · exact .inl (Int.tmod_eq_zero_of_dvd hdvd)
    · exact .inr (by rw [Int.sign_tmod, if_neg hdvd])

/-- The remainder of the configured quotient, in both rounding modes. -/
theorem quotient_remainder (round : DivRound) (a : Int) {b : Int} (hb : b ≠ 0) :
    (a - quotient round a b * b).natAbs < b.natAbs ∧
      (a - quotient round a b * b = 0 ∨ (a - quotient round a b * b).sign =
        match round with
        | .floor => b.sign
        | .trunc => a.sign) := by
  cases round with
  | floor =>
    have hrem : a - quotient .floor a b * b = a.fmod b := by
      rw [Int.fmod_def, mul_comm b]
      rfl
    rw [hrem]
    exact floor_remainder a hb
  | trunc =>
    have hrem : a - quotient .trunc a b * b = a.tmod b := by
      rw [Int.tmod_def, mul_comm b]
      rfl
    rw [hrem]
    exact trunc_remainder a hb

/-- Settles O17: the zero divisor raises; otherwise the quotient is the configured one. -/
theorem divRoundsAsConfigured : Obligations.DivRoundsAsConfigured := by
  intro s l rd rs rt a b hd ha hb
  refine ⟨fun hzero => ?_, fun hne => ?_⟩
  · exact complete_alu3_fault rd ha hb (if_pos hzero)
  · obtain ⟨hlt, hsign⟩ := quotient_remainder s.cfg.divRound a hne
    exact ⟨quotient s.cfg.divRound a b, complete_alu3 hd ha hb (if_neg hne) .rfl, hlt, hsign⟩

/-! ### Which register a line changes -/

/-- A register read sees the configuration and the general registers alone. -/
theorem readReg_congr {s t : State} (hcfg : t.cfg = s.cfg) (hregs : t.regs = s.regs)
    (o : Operand) : readReg t o = readReg s o := by
  unfold readReg
  rw [hcfg, hregs]

/-- A register write leaves what every other operand reads (10_state.md R22). -/
theorem readReg_of_writeReg_ne {s u : State} {o o' : Operand} {v : Int}
    (h : writeReg s o v = .ok u) (ho : o' ≠ o) : readReg u o' = readReg s o' := by
  obtain ⟨name, rfl, ⟨-, rfl⟩ | ⟨-, k, hk, rfl⟩⟩ := writeReg_ok h
  · rfl
  · exact readReg_setReg_ne v hk ho

/-- Every operand reads as before a line's unit wrote, but the first operand's register and, for a
read, the result register (44_syscall_unit.md R230). -/
theorem LineWrites.readReg_frame {i : Instr} {s u : State} (h : LineWrites i s u) {o : Operand}
    (hfirst : i.operands.head? ≠ some o)
    (hres : (i.operation?.map Prod.fst ≠ some 40 ∧ i.operation?.map Prod.fst ≠ some 41) ∨
      o ≠ .sym s.cfg.sysResReg) : readReg u o = readReg s o := by
  cases h with
  | unchanged => rfl
  | result ho hw => exact readReg_of_writeReg_ne hw fun heq => hfirst (heq ▸ ho)
  | product | store | toHi | toLo | print => exact readReg_congr rfl rfl o
  | @input v u hop hw =>
    have hne : o ≠ .sym s.cfg.sysResReg := by
      obtain ⟨h40, h41⟩ | hne := hres
      · exact (hop.elim h40 h41).elim
      · exact hne
    exact (readReg_congr (s := u) rfl rfl o).trans (readReg_of_writeReg_ne hw hne)

/-- The register frame of a completed line. -/
theorem exec_readReg_frame {i : Instr} {s t : State} (h : exec i s = .next t) {o : Operand}
    (hfirst : i.operands.head? ≠ some o)
    (hres : (i.operation?.map Prod.fst ≠ some 40 ∧ i.operation?.map Prod.fst ≠ some 41) ∨
      o ≠ .sym s.cfg.sysResReg) : readReg t o = readReg s o := by
  obtain ⟨u, hu, rfl⟩ | ⟨-, newPc, taken, rfl⟩ := exec_lineWrites h
  · exact (readReg_congr (s := u) rfl rfl o).trans (hu.readReg_frame hfirst hres)
  · exact readReg_congr rfl rfl o

/-- The lines that write no general register: those of no unit and of the Jump Unit, `mult`, `sw`,
`mthi`, `mtlo` and the prints. -/
def WritesNoRegister (i : Instr) : Prop :=
  unitOfLine i = none ∨ unitOfLine i = some .jump ∨
    i.operation?.map Prod.fst ∈ [some 3, some 22, some 28, some 29, some 38, some 39]

/-- A completed line keeps the registers when its unit's execution does. -/
theorem complete_keeps_regs {r : Except Fault State} {s t : State} (h : complete r = .next t)
    (hr : ∀ u, r = .ok u → u.regs = s.regs) : t.regs = s.regs := by
  obtain ⟨u, hu, rfl⟩ := complete_next.mp h
  exact hr u hu

theorem branchStep_keeps_regs {x : Except Fault (Bool × Operand)} {s t : State}
    (h : branchStep x s = .next t) : t.regs = s.regs := by
  obtain ⟨newPc, taken, rfl⟩ := branchStep_branchTo h
  rfl

/-- Split along the dispatch: the executions in question end in another write than a register's, and
the remaining lines are not of the kind. -/
theorem exec_keeps_regs {i : Instr} {s t : State} (hi : WritesNoRegister i)
    (h : exec i s = .next t) : t.regs = s.regs := by
  cases i with
  | sectionLine _ | spaceLine _ _ | wordLine _ _ | labelLine _ =>
    refine complete_keeps_regs (r := .ok s) h fun u hu => ?_
    cases hu
    rfl
  | nop l ops =>
    refine complete_keeps_regs h fun u hu => ?_
    obtain ⟨_, -, hu⟩ := bind_ok.mp hu
    cases hu
    rfl
  | mult l ops =>
    refine complete_keeps_regs h fun u hu => ?_
    simp only [bind_ok] at hu
    obtain ⟨_, -, _, -, _, -, hu⟩ := hu
    cases hu
    rfl
  | mthi l ops | mtlo l ops =>
    refine complete_keeps_regs h fun u hu => ?_
    simp only [bind_ok] at hu
    obtain ⟨_, -, _, -, hu⟩ := hu
    cases hu
    rfl
  | sw l ops =>
    refine complete_keeps_regs h fun u hu => ?_
    simp only [bind_ok] at hu
    obtain ⟨_, -, _, -, _, -, hw⟩ := hu
    obtain ⟨-, -, rfl⟩ := memWrite_ok hw
    rfl
  | printInt l ops | printChar l ops =>
    refine complete_keeps_regs h fun u hu => ?_
    obtain ⟨v, -, -, rfl⟩ := printArg_ok hu
    rfl
  | beq l ops | bne l ops | bgt l ops | bge l ops | blt l ops | ble l ops | j l ops =>
    exact branchStep_keeps_regs h
  | unknownOp l opcode ops => cases h
  | add | sub | div | and | or | xor | not | slt | sllv | srlv | srav | addi | andi | ori | xori
  | slti | sll | srl | sra | lw | li | la | lui | mfhi | mflo | move | readInt | readChar | exit =>
    simp [WritesNoRegister, unitOfLine, unitOf, Instr.operation?] at hi

/-- Settles O36: the frame of what a line's unit writes, and the lines that write no register. -/
theorem atMostOneRegisterChanges : Obligations.AtMostOneRegisterChanges := by
  intro i s t h
  exact ⟨fun o hfirst hres => exec_readReg_frame h hfirst (.inr hres),
    fun h40 h41 o hfirst => exec_readReg_frame h hfirst (.inl ⟨h40, h41⟩),
    fun hi => exec_keeps_regs hi h⟩

end Sys2Proof.Proofs
end

/-! ## The Memory Unit: O18 to O22 -/

section
namespace Sys2Proof.Proofs

open Sys2Proof Sys2Proof.Machine

/-! ### The word index of `lw` and `sw` (20_memory.md R62) -/

/-- The model's floor division is Lean's `/`, a word size being no negative number. -/
theorem effectiveAddress_imm (c : Config) (base off : Int) :
    effectiveAddress c base (imm c off) = wordIndex c base off := by
  rw [effectiveAddress, fdiv, Int.fdiv_eq_ediv_of_nonneg base (Int.natCast_nonneg c.wordSize)]
  rfl

theorem not_inData_of_outside {m : List Int} {addr : Int}
    (h : addr < 0 ∨ (m.length : Int) ≤ addr) : ¬ inData m addr = true := by
  rw [inData_iff]
  omega

theorem memRead_of_getElem? {s : State} {addr w : Int} (h0 : 0 ≤ addr)
    (hw : s.dmem[addr.toNat]? = some w) : memRead s addr = .ok w := by
  obtain ⟨hlt, rfl⟩ := List.getElem?_eq_some_iff.mp hw
  rw [memRead_of_inData (inData_iff.mpr ⟨h0, by omega⟩), List.getD_eq_getElem _ _ hlt]

/-- A read of the data segment does not depend on the program counter. -/
theorem memRead_advance (s : State) (addr : Int) : memRead s.advance addr = memRead s addr := rfl

/-! ### Completed lines

What each line does once its operands have been checked and read. -/

/-- A line that ends in one register write completes with any value congruent to the one it writes. -/
theorem complete_writeReg {s : State} {rd : Operand} {v w : Int}
    (hd : namesRegister s.cfg rd = true) (hvw : v ≡ w [ZMOD 2 ^ s.cfg.xlen]) :
    complete (writeReg s rd v) = .next (s.put rd w).advance := by
  rw [writeReg_eq_put hd, put_congr rd hvw, complete_ok]

theorem exec_lw {s : State} {rb : Operand} {base : Int} (l : Option Text) (rt : Operand) (off : Int)
    (hb : readReg s rb = .ok base) :
    exec (.lw l [rt, .int off, rb]) s =
      complete ((memRead s (wordIndex s.cfg base off)).bind (writeReg s rt)) := by
  simp [exec, execLw, formatFM, hb, effectiveAddress_imm]

theorem exec_sw {s : State} {rt rb : Operand} {v base : Int} (l : Option Text) (off : Int)
    (hv : readReg s rt = .ok v) (hb : readReg s rb = .ok base) :
    exec (.sw l [rt, .int off, rb]) s = complete (memWrite s (wordIndex s.cfg base off) v) := by
  simp [exec, execSw, formatFM, hv, hb, effectiveAddress_imm]

/-- Before its label is looked up, `la` checks only the number of its operands. -/
theorem exec_la (s : State) (l : Option Text) (rd target : Operand) :
    exec (.la l [rd, target]) s = complete
      ((lookupLabel s.dlabel target).bind fun base => writeReg s rd (base * laFactor s.cfg)) := rfl

theorem exec_mthi {s : State} {rs : Operand} {a : Int} (l : Option Text)
    (ha : readReg s rs = .ok a) : exec (.mthi l [rs]) s = .next (s.setHi a).advance := by
  simp [exec, execMthi, format1, ha]

theorem exec_mtlo {s : State} {rs : Operand} {a : Int} (l : Option Text)
    (ha : readReg s rs = .ok a) : exec (.mtlo l [rs]) s = .next (s.setLo a).advance := by
  simp [exec, execMtlo, format1, ha]

/-! ### Labels and `LA_SCALE` (42_memory_unit.md R194, 00_scope.md R8) -/

theorem lookupLabel_of_lookup {m : LabelMap} {name : Text} {k : Nat}
    (h : m.lookup name = some k) : lookupLabel m (.sym name) = .ok k := by
  simp [lookupLabel, h]

theorem lookupLabel_of_lookup_eq_none {m : LabelMap} {name : Text} (h : m.lookup name = none) :
    lookupLabel m (.sym name) = .error (.unknownLabel (.sym name)) := by
  simp [lookupLabel, h]

theorem laFactor_eq_ite (c : Config) :
    laFactor c = if c.laScale = .one then 1 else (c.wordSize : Int) := by
  cases h : c.laScale <;> simp [laFactor, h]

/-! ### The obligations -/

/-- Settles O19: inside the segment `sw` is one `setWord`, whose two read laws are the claim; outside it
the store takes its error branch. -/
theorem swStoresOneWord : Obligations.SwStoresOneWord := by
  intro s l rt rb v base off hv hb
  rw [exec_sw l off hv hb]
  refine ⟨fun h0 hlt => ?_, fun hout => ?_⟩
  · have hin : inData s.dmem (wordIndex s.cfg base off) = true := inData_iff.mpr ⟨h0, hlt⟩
    rw [memWrite_of_inData v hin, complete_ok]
    refine ⟨_, rfl, rfl, ?_, fun x hx => ?_⟩
    · rw [memRead_advance, memRead_setWord_same v hin]
    · rw [memRead_advance, memRead_setWord_ne v h0 hx]
  · rw [memWrite_of_not_inData v (not_inData_of_outside hout), complete_error]

/-- Settles O18: the read comes before the write, so outside the segment the destination does not
matter. -/
theorem lwLoadsTheIndexedWord : Obligations.LwLoadsTheIndexedWord := by
  intro s l rt rb base off hb
  rw [exec_lw l rt off hb]
  refine ⟨fun w h0 hw hd => ?_, fun hout => ?_⟩
  · rw [memRead_of_getElem? h0 hw, ok_bind, complete_writeReg hd .rfl]
  · rw [memRead_of_not_inData (not_inData_of_outside hout), error_bind, complete_error]

/-- Settles O20: the literal is wrapped before the write wraps the result, which only replaces it by a
congruent one (30_encoding.md R107). -/
theorem loadImmediatesWriteTheLiteral : Obligations.LoadImmediatesWriteTheLiteral := by
  intro s l rd k hd
  have hlui : imm s.cfg k * pow2 (luiShift s.cfg) ≡ k * 2 ^ (s.cfg.xlen / 2)
      [ZMOD 2 ^ s.cfg.xlen] := by
    rw [pow2_eq_two_pow]
    exact (wrap_modEq _ k).mul_right _
  exact ⟨complete_writeReg hd (wrap_modEq _ k), complete_writeReg hd hlui⟩

/-- Settles O21, by what the lookup answers: an index, or the error for its operand. -/
theorem laLoadsTheScaledLabelIndex : Obligations.LaLoadsTheScaledLabelIndex := by
  intro s l rd name base v
  refine ⟨fun hd hl => ?_, fun hl => ?_, rfl⟩
  · rw [exec_la, lookupLabel_of_lookup hl, ok_bind, laFactor_eq_ite, complete_writeReg hd .rfl]
  · rw [exec_la, lookupLabel_of_lookup_eq_none hl, error_bind, complete_error]

/-- Settles O22: three of the moves end in one register write, two in an accumulator's. -/
theorem movesCopyOneRegister : Obligations.MovesCopyOneRegister := by
  intro s l rd rs a hd ha
  exact ⟨complete_writeReg hd .rfl, complete_writeReg hd .rfl, exec_mthi l ha, exec_mtlo l ha,
    complete_unary hd ha .rfl⟩

end Sys2Proof.Proofs
end

/-! ## The Jump Unit: O23 to O25 -/

section
namespace Sys2Proof.Proofs

open Sys2Proof Sys2Proof.Machine

/-! ### The branch step (46_cpu.md R279) -/

/-- The address that keys the predictor's update (46_cpu.md R285), with the two values of `UPDATE_KEY`
as the two branches of a conditional. -/
theorem updateAddress_eq_ite (c : Config) (before after : Int) :
    updateAddress c before after = if c.updateKey = .postPc then after else before := by
  cases h : c.updateKey <;> simp [updateAddress, h]

/-- What the branch step writes through the state's operations is what R279 lists field by field. -/
theorem branchTo_eq_branchedTo (s : State) (target : Int) (taken : Bool) :
    branchTo s target taken = branchedTo s target taken := by
  rw [branchTo, updateAddress_eq_ite]
  rfl

theorem branchStep_of_branchPc {s : State} {taken : Bool} {target : Operand} {newPc : Int}
    (h : branchPc s taken target = .ok newPc) :
    branchStep (.ok (taken, target)) s = .next (branchedTo s newPc taken) := by
  simp [branchStep, h, branchTo_eq_branchedTo]

theorem branchStep_of_branchPc_error {s : State} {taken : Bool} {target : Operand} {e : Fault}
    (h : branchPc s taken target = .error e) :
    branchStep (.ok (taken, target)) s = .fault e := by
  simp [branchStep, h, raise]

/-! ### Targets (43_jump_unit.md R218) -/

/-- Neither an integer nor a name that is not in the map is a label. -/
theorem lookupLabel_of_undeclared {m : LabelMap} {target : Operand}
    (h : ∀ name, target = .sym name → m.lookup name = none) :
    lookupLabel m target = .error (.unknownLabel target) := by
  cases target with
  | int v => rfl
  | sym name => exact lookupLabel_of_lookup_eq_none (h name rfl)

/-- A branch that is not taken does not look at its target. -/
theorem branchStep_not_taken (s : State) (target : Operand) :
    branchStep (.ok (false, target)) s = .next (branchedTo s (s.pc + 1) false) :=
  branchStep_of_branchPc rfl

theorem branchStep_taken {s : State} {name : Text} {line : Nat}
    (h : s.clabel.lookup name = some line) :
    branchStep (.ok (true, .sym name)) s = .next (branchedTo s line true) :=
  branchStep_of_branchPc (by simp [branchPc, lookupLabel_of_lookup h])

theorem branchStep_taken_undeclared {s : State} {target : Operand}
    (h : ∀ name, target = .sym name → s.clabel.lookup name = none) :
    branchStep (.ok (true, target)) s = .fault (.unknownLabel target) :=
  branchStep_of_branchPc_error (by simp [branchPc, lookupLabel_of_undeclared h])

/-! ### Comparisons (43_jump_unit.md R210) -/

theorem compareRegs_of_readReg {f : Int → Int → Bool} {s : State} {rs rt : Operand} {a b : Int}
    (target : Operand) (ha : readReg s rs = .ok a) (hb : readReg s rt = .ok b) :
    compareRegs f [rs, rt, target] s = .ok (f a b, target) := by
  simp [compareRegs, format3, ha, hb]

/-- A comparison of two readable registers is the taken branch step or the one not taken, by whether
the comparison `p` holds. -/
theorem branchStep_compareRegs {f : Int → Int → Bool} {s : State} {rs rt target : Operand}
    {a b : Int} {p : Prop} [Decidable p] (ha : readReg s rs = .ok a) (hb : readReg s rt = .ok b)
    (hf : f a b = decide p) :
    branchStep (compareRegs f [rs, rt, target] s) s =
      if p then branchStep (.ok (true, target)) s else .next (branchedTo s (s.pc + 1) false) := by
  rw [compareRegs_of_readReg target ha hb, hf]
  by_cases hp : p
  · rw [decide_eq_true hp, if_pos hp]
  · rw [decide_eq_false hp, if_neg hp, branchStep_not_taken]

theorem branchStep_compareRegs_declared {f : Int → Int → Bool} {s : State} {rs rt : Operand}
    {name : Text} {line : Nat} {a b : Int} {p : Prop} [Decidable p] (ha : readReg s rs = .ok a)
    (hb : readReg s rt = .ok b) (hl : s.clabel.lookup name = some line) (hf : f a b = decide p) :
    branchStep (compareRegs f [rs, rt, .sym name] s) s =
      .next (if p then branchedTo s line true else branchedTo s (s.pc + 1) false) := by
  rw [branchStep_compareRegs ha hb hf, branchStep_taken hl, apply_ite Host.Outcome.next]

theorem branchStep_compareRegs_undeclared {f : Int → Int → Bool} {s : State}
    {rs rt target : Operand} {a b : Int} {p : Prop} [Decidable p] (ha : readReg s rs = .ok a)
    (hb : readReg s rt = .ok b) (hl : ∀ name, target = .sym name → s.clabel.lookup name = none)
    (hf : f a b = decide p) :
    branchStep (compareRegs f [rs, rt, target] s) s =
      if p then .fault (.unknownLabel target) else .next (branchedTo s (s.pc + 1) false) := by
  rw [branchStep_compareRegs ha hb hf, branchStep_taken_undeclared hl]

/-! ### The obligations -/

/-- Settles O23: the six lines are one branch step, each with the decision of its own comparison. -/
theorem comparisonBranchesComplete : Obligations.ComparisonBranchesComplete := by
  intro s l rs rt name line a b ha hb hl
  have completes {f : Int → Int → Bool} {p : Prop} [Decidable p] (hf : f a b = decide p) :=
    branchStep_compareRegs_declared ha hb hl hf
  exact ⟨completes (f := outcomeEq) rfl, completes (f := outcomeNe) rfl,
    completes (f := outcomeGt) rfl, completes (f := outcomeGe) rfl,
    completes (f := outcomeLt) rfl, completes (f := outcomeLe) rfl⟩

/-- Settles O24: the same six steps with a target that has no line, and `j`, which is always taken. -/
theorem targetsAreResolvedOnlyWhenTaken : Obligations.TargetsAreResolvedOnlyWhenTaken := by
  intro s l rs rt target a b ha hb hl
  have resolves {f : Int → Int → Bool} {p : Prop} [Decidable p] (hf : f a b = decide p) :=
    branchStep_compareRegs_undeclared ha hb hl hf
  exact ⟨resolves (f := outcomeEq) rfl, resolves (f := outcomeNe) rfl,
    resolves (f := outcomeGt) rfl, resolves (f := outcomeGe) rfl,
    resolves (f := outcomeLt) rfl, resolves (f := outcomeLe) rfl, branchStep_taken_undeclared hl⟩

/-- Settles O25: `j` is the branch step that is always taken, with its one operand as target. -/
theorem jumpCompletesAsATakenBranch : Obligations.JumpCompletesAsATakenBranch :=
  fun _ _ _ _ hl => branchStep_taken hl

end Sys2Proof.Proofs
end

/-! ## The System-Call Unit, and which line raises which error: O26 to O28 -/

section
namespace Sys2Proof.Proofs

open Sys2Proof Sys2Proof.Machine

/-! ### The print operations and the reads (44_syscall_unit.md R231 to R234) -/

theorem complete_printArg {s : State} {v : Int} (event : Int → Event)
    (hv : readReg s (.sym s.cfg.sysArgReg) = .ok v) :
    complete (printArg event [] s) = .next (s.emit (event v)).advance := by
  simp [printArg, formatF0, hv]

/-- Giving a register a value uses up no answer of the input provider. -/
@[simp] theorem put_draws (s : State) (o : Operand) (v : Int) : (s.put o v).draws = s.draws := by
  cases o with
  | int i => rfl
  | sym name =>
    unfold State.put
    dsimp only
    split
    · rfl
    · split <;> rfl

theorem complete_readInput {s : State} (answer : Nat → Int) (hanswers : s.inputSilent = false)
    (hres : namesRegister s.cfg (.sym s.cfg.sysResReg) = true) :
    complete (readInput answer [] s) =
      .next (s.put (.sym s.cfg.sysResReg) (answer s.draws)).drawn.advance := by
  simp [readInput, formatF0, hanswers, acceptInput, writeReg_eq_put hres]

theorem complete_readInput_silent {s : State} (answer : Nat → Int) (hsilent : s.inputSilent = true) :
    complete (readInput answer [] s) = .fault .inputNeverAnswers := by
  simp [readInput, formatF0, hsilent]

/-- The draw after a result's write, with the counter of the state before. -/
theorem put_drawn (s : State) (o : Operand) (v : Int) :
    (s.put o v).drawn = { s.put o v with draws := s.draws + 1 } := by
  rw [State.drawn, put_draws]

/-- Settles O26: both lines are one print, each with its own kind of event. -/
theorem printsAppendOneEvent : Obligations.PrintsAppendOneEvent :=
  fun _ _ _ hv => ⟨complete_printArg .printInt hv, complete_printArg .printChar hv⟩

/-- Settles O27: both lines are one read, each with its own answers. -/
theorem readsWriteTheProvidersAnswer : Obligations.ReadsWriteTheProvidersAnswer := by
  intro s l
  refine ⟨fun hanswers hres => ?_, fun hsilent => ?_⟩
  · rw [← put_drawn, ← put_drawn]
    exact ⟨complete_readInput Config.answerInt hanswers hres,
      complete_readInput (fun n => (Config.answerChar n : Int)) hanswers hres⟩
  · exact ⟨complete_readInput_silent _ hsilent, complete_readInput_silent _ hsilent⟩

/-! ### Which line raises what

`LineRaises` says which errors a line can raise, by its op id (30_encoding.md R104), as `LineWrites`
does for its writes. `exec_lineRaises` splits the dispatch once. -/

/-- The operations with a register operand have the op ids 1 to 36 (30_encoding.md R104, R106). -/
def HasRegisterOperand (i : Instr) : Prop :=
  ∃ id l ops, i.operation? = some (id, l, ops) ∧ 1 ≤ id ∧ id ≤ 36

theorem HasRegisterOperand.isOperation {i : Instr} (h : HasRegisterOperand i) :
    i.operation?.isSome = true := by
  obtain ⟨id, l, ops, hop, -, -⟩ := h
  rw [hop]
  rfl

/-- The errors that line `i` can raise at `s` (60_exceptions.md R300 to R311). -/
inductive LineRaises (i : Instr) (s : State) : Fault → Prop where
  | badOperands (hop : i.operation?.isSome = true) : LineRaises i s .badOperands
  /-- A register operand, read or written (R302). -/
  | unknownRegister (o : Operand) (hreg : HasRegisterOperand i) : LineRaises i s (.unknownRegister o)
  /-- A system-call register that the configuration does not declare (44_syscall_unit.md R230). -/
  | systemRegister {name : Text} (hname : name = s.cfg.sysArgReg ∨ name = s.cfg.sysResReg)
      (hnot : namesRegister s.cfg (.sym name) = false)
      (hop : i.operation?.map Prod.fst ∈ [some 38, some 39, some 40, some 41]) :
      LineRaises i s (.unknownRegister (.sym name))
  /-- A taken branch's target, or the label of `la` (R303). -/
  | unknownLabel (o : Operand)
      (hop : unitOfLine i = some .jump ∨ i.operation?.map Prod.fst = some 24) :
      LineRaises i s (.unknownLabel o)
  /-- `lw` and `sw` (R304). -/
  | addressOutOfRange (addr : Int)
      (hop : i.operation?.map Prod.fst = some 21 ∨ i.operation?.map Prod.fst = some 22) :
      LineRaises i s (.addressOutOfRange addr)
  | unknownOperation {l : Option Text} {opcode : Text} {ops : List Operand}
      (hi : i = .unknownOp l opcode ops) : LineRaises i s (.unknownOperation opcode)
  | notImplemented (hop : i.operation?.map Prod.fst = some 42) :
      LineRaises i s (.notImplemented (text "exit"))
  /-- `div` (R309). -/
  | divideByZero (hop : i.operation?.map Prod.fst = some 4) : LineRaises i s .divideByZero
  /-- The reads (log 7). -/
  | inputNeverAnswers
      (hop : i.operation?.map Prod.fst = some 40 ∨ i.operation?.map Prod.fst = some 41) :
      LineRaises i s .inputNeverAnswers

/-- An execution, or a part of one, that raises only what line `i` can raise at `s`. -/
def RaisesAsLine (i : Instr) (s : State) {α : Type} (x : Except Fault α) : Prop :=
  ∀ e, x = .error e → LineRaises i s e

/-! #### Sequences and completion -/

section
variable {i : Instr} {s : State}

theorem RaisesAsLine.ok {α : Type} (a : α) : RaisesAsLine i s (.ok a) := nofun

theorem RaisesAsLine.bind {α β : Type} {x : Except Fault α} {k : α → Except Fault β}
    (hx : RaisesAsLine i s x) (hk : ∀ a, RaisesAsLine i s (k a)) :
    RaisesAsLine i s (x.bind k) := fun e h => by
  obtain h | ⟨a, -, h⟩ := bind_error.mp h
  · exact hx e h
  · exact hk a e h

/-- A line that completes after its execution raises what the execution raises (46_cpu.md R278). -/
theorem RaisesAsLine.complete {x : Except Fault State} {e : Fault} (hx : RaisesAsLine i s x)
    (h : complete x = .fault e) : LineRaises i s e :=
  hx e (complete_fault.mp h)

/-- A branch step raises what its execution raises, or fails to find its target (46_cpu.md R279). -/
theorem RaisesAsLine.branchStep {x : Except Fault (Bool × Operand)} {e : Fault}
    (hjump : unitOfLine i = some .jump) (hx : RaisesAsLine i s x)
    (h : branchStep x s = .fault e) : LineRaises i s e := by
  obtain h | ⟨target, -, rfl⟩ := branchStep_fault h
  · exact hx e h
  · exact .unknownLabel target (.inl hjump)

/-! #### The accessors -/

theorem ChecksFormat.raisesAsLine {α : Type} {check : List Operand → Except Fault α} {f : Format}
    (hcheck : ChecksFormat check f) (hop : i.operation?.isSome = true) (ops : List Operand) :
    RaisesAsLine i s (check ops) := fun e h => by
  obtain ⟨rfl, -⟩ := (hcheck ops e).mp h
  exact .badOperands hop

theorem readReg_raisesAsLine (hreg : HasRegisterOperand i) (o : Operand) :
    RaisesAsLine i s (readReg s o) := fun _ h =>
  readReg_error h ▸ .unknownRegister o hreg

theorem writeReg_raisesAsLine (hreg : HasRegisterOperand i) (o : Operand) (v : Int) :
    RaisesAsLine i s (writeReg s o v) := fun _ h =>
  writeReg_error h ▸ .unknownRegister o hreg

theorem memRead_raisesAsLine (hop : i.operation?.map Prod.fst = some 21) (addr : Int) :
    RaisesAsLine i s (memRead s addr) := fun e h => by
  obtain ⟨rfl, -⟩ := memRead_error h
  exact .addressOutOfRange addr (.inl hop)

theorem memWrite_raisesAsLine (hop : i.operation?.map Prod.fst = some 22) (addr v : Int) :
    RaisesAsLine i s (memWrite s addr v) := fun e h => by
  obtain ⟨rfl, -⟩ := memWrite_error h
  exact .addressOutOfRange addr (.inr hop)

theorem lookupLabel_raisesAsLine (hop : i.operation?.map Prod.fst = some 24) (m : LabelMap)
    (o : Operand) : RaisesAsLine i s (lookupLabel m o) := fun _ h =>
  lookupLabel_error h ▸ .unknownLabel o (.inr hop)

/-- An operand whose read fails names no register. -/
theorem not_namesRegister_of_readReg_error {o : Operand} {e : Fault} (h : readReg s o = .error e) :
    namesRegister s.cfg o = false := by
  refine Bool.eq_false_iff.mpr fun hnames => ?_
  obtain ⟨-, ⟨a, ha⟩, -⟩ := (registerAccessIsByNameAndFramed s o 0).1 hnames
  cases ha.symm.trans h

/-- An operand whose write fails names no register. -/
theorem not_namesRegister_of_writeReg_error {o : Operand} {v : Int} {e : Fault}
    (h : writeReg s o v = .error e) : namesRegister s.cfg o = false := by
  refine Bool.eq_false_iff.mpr fun hnames => ?_
  cases (writeReg_eq_put hnames v).symm.trans h

/-! #### The units' executions -/

theorem alu3_raisesAsLine {g : Int → Int → Except Fault Int} (hreg : HasRegisterOperand i)
    (hg : ∀ a b, RaisesAsLine i s (g a b)) (ops : List Operand) :
    RaisesAsLine i s (alu3 g ops s) :=
  ((format3_checks (.inl rfl)).raisesAsLine hreg.isOperation ops).bind fun _ =>
    (readReg_raisesAsLine hreg _).bind fun _ => (readReg_raisesAsLine hreg _).bind fun _ =>
      (hg _ _).bind fun _ => writeReg_raisesAsLine hreg _ _

theorem aluImm_raisesAsLine (g : Int → Int → Int) (hreg : HasRegisterOperand i)
    (ops : List Operand) : RaisesAsLine i s (aluImm g ops s) :=
  (formatFI_checks.raisesAsLine hreg.isOperation ops).bind fun _ =>
    (readReg_raisesAsLine hreg _).bind fun _ => writeReg_raisesAsLine hreg _ _

theorem unary_raisesAsLine (g : Int → Int) (hreg : HasRegisterOperand i) (ops : List Operand) :
    RaisesAsLine i s (unary g ops s) :=
  ((format2_checks (.inl rfl)).raisesAsLine hreg.isOperation ops).bind fun _ =>
    (readReg_raisesAsLine hreg _).bind fun _ => writeReg_raisesAsLine hreg _ _

theorem compareRegs_raisesAsLine (g : Int → Int → Bool) (hreg : HasRegisterOperand i)
    (ops : List Operand) : RaisesAsLine i s (compareRegs g ops s) :=
  ((format3_checks (.inr rfl)).raisesAsLine hreg.isOperation ops).bind fun _ =>
    (readReg_raisesAsLine hreg _).bind fun _ => (readReg_raisesAsLine hreg _).bind fun _ => .ok _

theorem printArg_raisesAsLine (event : Int → Event) (hop : i.operation?.isSome = true)
    (hsys : i.operation?.map Prod.fst ∈ [some 38, some 39, some 40, some 41]) (ops : List Operand) :
    RaisesAsLine i s (printArg event ops s) := by
  have hread : RaisesAsLine i s (readReg s (.sym s.cfg.sysArgReg)) := fun _ h =>
    readReg_error h ▸ .systemRegister (.inl rfl) (not_namesRegister_of_readReg_error h) hsys
  exact (formatF0_checks.raisesAsLine hop ops).bind fun _ => hread.bind fun _ => .ok _

theorem readInput_raisesAsLine (answer : Nat → Int) (hop : i.operation?.isSome = true)
    (hread : i.operation?.map Prod.fst = some 40 ∨ i.operation?.map Prod.fst = some 41)
    (ops : List Operand) : RaisesAsLine i s (readInput answer ops s) := by
  have hsys : i.operation?.map Prod.fst ∈ [some 38, some 39, some 40, some 41] := by
    obtain h | h := hread <;> simp [h]
  refine (formatF0_checks.raisesAsLine hop ops).bind fun _ e h => ?_
  split at h
  · cases h
    exact .inputNeverAnswers hread
  · have hwrite : RaisesAsLine i s (writeReg s (.sym s.cfg.sysResReg) (answer s.draws)) := fun _ h =>
      writeReg_error h ▸ .systemRegister (.inr rfl) (not_namesRegister_of_writeReg_error h) hsys
    exact (hwrite.bind fun u => .ok u.drawn) e h

end

/-! #### The lines -/

/-- `exit` stops on every path, and its operand check comes first (44_syscall_unit.md R235,
60_exceptions.md R313). -/
theorem exec_exit (s : State) (l : Option Text) (ops : List Operand) :
    exec (.exit l ops) s =
      .fault (if ops = [] then .notImplemented (text "exit") else .badOperands) := by
  cases ops with
  | nil => rfl
  | cons o rest => rfl

/-- A line that fails raises one of the errors of its own op id. -/
theorem exec_lineRaises {i : Instr} {s : State} {e : Fault} (h : exec i s = .fault e) :
    LineRaises i s e := by
  cases i with
  | sectionLine _ | spaceLine _ _ | wordLine _ _ | labelLine _ => cases h
  | nop l ops =>
    exact ((formatF0_checks.raisesAsLine rfl ops).bind fun _ => .ok s).complete h
  | add l ops | sub l ops | and l ops | or l ops | xor l ops | slt l ops | sllv l ops | srlv l ops
  | srav l ops =>
    exact (alu3_raisesAsLine ⟨_, _, _, rfl, by decide, by decide⟩ (fun _ _ => .ok _) ops).complete h
  | div l ops =>
    refine (alu3_raisesAsLine ⟨_, _, _, rfl, by decide, by decide⟩ (fun a b e h => ?_) ops).complete h
    split at h <;> cases h
    exact .divideByZero rfl
  | addi l ops | andi l ops | ori l ops | xori l ops | slti l ops | sll l ops | srl l ops
  | sra l ops =>
    exact (aluImm_raisesAsLine _ ⟨_, _, _, rfl, by decide, by decide⟩ ops).complete h
  | not l ops | move l ops =>
    exact (unary_raisesAsLine _ ⟨_, _, _, rfl, by decide, by decide⟩ ops).complete h
  | mult l ops =>
    have hreg : HasRegisterOperand (.mult l ops) := ⟨_, _, _, rfl, by decide, by decide⟩
    exact (((format2_checks (.inr (.inl rfl))).raisesAsLine hreg.isOperation ops).bind fun _ =>
      (readReg_raisesAsLine hreg _).bind fun _ => (readReg_raisesAsLine hreg _).bind fun _ =>
        .ok _).complete h
  | lw l ops =>
    have hreg : HasRegisterOperand (.lw l ops) := ⟨_, _, _, rfl, by decide, by decide⟩
    exact ((formatFM_checks.raisesAsLine hreg.isOperation ops).bind fun _ =>
      (readReg_raisesAsLine hreg _).bind fun _ => (memRead_raisesAsLine rfl _).bind fun _ =>
        writeReg_raisesAsLine hreg _ _).complete h
  | sw l ops =>
    have hreg : HasRegisterOperand (.sw l ops) := ⟨_, _, _, rfl, by decide, by decide⟩
    exact ((formatFM_checks.raisesAsLine hreg.isOperation ops).bind fun _ =>
      (readReg_raisesAsLine hreg _).bind fun _ => (readReg_raisesAsLine hreg _).bind fun _ =>
        memWrite_raisesAsLine rfl _ _).complete h
  | la l ops =>
    have hreg : HasRegisterOperand (.la l ops) := ⟨_, _, _, rfl, by decide, by decide⟩
    exact (((format2_checks (.inr (.inr rfl))).raisesAsLine hreg.isOperation ops).bind fun _ =>
      (lookupLabel_raisesAsLine rfl _ _).bind fun _ => writeReg_raisesAsLine hreg _ _).complete h
  | li l ops | lui l ops =>
    exact RaisesAsLine.complete (.bind (formatFRI_checks.raisesAsLine rfl ops) fun _ =>
      writeReg_raisesAsLine ⟨_, _, _, rfl, by decide, by decide⟩ _ _) h
  | mfhi l ops | mflo l ops =>
    exact RaisesAsLine.complete (.bind ((format1_checks (.inl rfl)).raisesAsLine rfl ops) fun _ =>
      writeReg_raisesAsLine ⟨_, _, _, rfl, by decide, by decide⟩ _ _) h
  | mthi l ops | mtlo l ops =>
    exact RaisesAsLine.complete (.bind ((format1_checks (.inl rfl)).raisesAsLine rfl ops) fun _ =>
      .bind (readReg_raisesAsLine ⟨_, _, _, rfl, by decide, by decide⟩ _) fun _ => .ok _) h
  | beq l ops | bne l ops | bgt l ops | bge l ops | blt l ops | ble l ops =>
    exact (compareRegs_raisesAsLine _ ⟨_, _, _, rfl, by decide, by decide⟩ ops).branchStep rfl h
  | j l ops =>
    exact (((format1_checks (.inr rfl)).raisesAsLine rfl ops).bind fun _ =>
      .ok _).branchStep rfl h
  | printInt l ops | printChar l ops =>
    exact (printArg_raisesAsLine _ rfl (by simp [Instr.operation?]) ops).complete h
  | readInt l ops => exact (readInput_raisesAsLine _ rfl (.inl rfl) ops).complete h
  | readChar l ops => exact (readInput_raisesAsLine _ rfl (.inr rfl) ops).complete h
  | exit l ops =>
    rw [exec_exit] at h
    split at h <;> cases h
    · exact .notImplemented rfl
    · exact .badOperands rfl
  | unknownOp l opcode ops =>
    cases h
    exact .unknownOperation rfl

/-- Settles O28: of the errors a line can raise, NotImplemented is that of op id 42 alone. -/
theorem exitAloneRaisesNotImplemented : Obligations.ExitAloneRaisesNotImplemented := by
  refine ⟨exec_exit, fun i s opcode h => ?_⟩
  cases exec_lineRaises h with
  | notImplemented hop => exact hop

end Sys2Proof.Proofs
end

/-! ## The predictor never affects execution: O52 -/

section
namespace Sys2Proof.Proofs

open Sys2Proof Sys2Proof.Machine

/-! ### Erasing the predictor

Two machines differ only in the predictor exactly when erasing it makes them equal. So it is enough that
each operation commutes with the erasure, a statement about one machine. -/

/-- A state with the predictor, its latches and its parameters at one fixed value. -/
def erasePredictor (s : State) : State :=
  { s with
    cfg := withoutPredictor s.cfg
    hist := 0
    bhts := []
    lastValid := false
    lastPred := false
    lastOutcome := false
    lastAddr := 0
    latchDraws := 0 }

theorem sameArchitecture_iff {s t : State} :
    sameArchitecture s t ↔ erasePredictor s = erasePredictor t := by
  simp only [sameArchitecture, State.architectural, erasePredictor, Architectural.mk.injEq,
    State.mk.injEq, true_and]

/-- An outcome with the predictor erased in its next state. -/
def eraseOutcome : Host.Outcome State Fault Refusal → Host.Outcome State Fault Refusal
  | .next s => .next (erasePredictor s)
  | .fault e => .fault e
  | .refused r => .refused r

theorem sameOutcome_iff {x y : Host.Outcome State Fault Refusal} :
    sameOutcome x y ↔ eraseOutcome x = eraseOutcome y := by
  cases x <;> cases y <;> simp [sameOutcome, eraseOutcome, sameArchitecture_iff]

/-! #### Executions that do not see the predictor -/

/-- An execution that answers alike with the predictor erased, but for the erasure in its answer. -/
def PredictorBlind (execute : State → Except Fault State) : Prop :=
  ∀ s, execute (erasePredictor s) = (execute s).map erasePredictor

theorem PredictorBlind.bind {α : Type} {x : State → Except Fault α}
    {k : α → State → Except Fault State} (hx : ∀ s, x (erasePredictor s) = x s)
    (hk : ∀ a, PredictorBlind (k a)) : PredictorBlind fun s => (x s).bind fun a => k a s := by
  intro s
  dsimp only
  rw [hx]
  cases x s with
  | error e => rfl
  | ok a => exact hk a s

/-- A change of the state that commutes with the erasure. -/
theorem PredictorBlind.ok {f : State → State}
    (hf : ∀ s, f (erasePredictor s) = erasePredictor (f s)) : PredictorBlind fun s => .ok (f s) :=
  fun s => congrArg Except.ok (hf s)

/-- What follows an execution may change the state in ways that commute with the erasure. -/
theorem PredictorBlind.map {execute : State → Except Fault State} {f : State → State}
    (hx : PredictorBlind execute) (hf : ∀ s, f (erasePredictor s) = erasePredictor (f s)) :
    PredictorBlind fun s => (execute s).bind fun u => .ok (f u) := by
  intro s
  dsimp only
  rw [hx s]
  cases execute s with
  | error e => rfl
  | ok u => exact congrArg Except.ok (hf u)

theorem writeReg_blind (o : Operand) {v : State → Int} (hv : ∀ s, v (erasePredictor s) = v s) :
    PredictorBlind fun s => writeReg s o (v s) := by
  intro s
  dsimp only
  rw [hv]
  cases h : writeReg s o (v s) with
  | ok t =>
    obtain ⟨name, rfl, ⟨rfl, rfl⟩ | ⟨hz, k, hk, rfl⟩⟩ := writeReg_ok h
    · exact writeReg_zeroName (erasePredictor _) _
    · exact writeReg_of_regIndex (s := erasePredictor s) hz hk _
  | error e =>
    obtain rfl := writeReg_error h
    have hnot : namesRegister s.cfg o = false := not_namesRegister_of_writeReg_error h
    have hnot' : namesRegister (erasePredictor s).cfg o = false := hnot
    exact (access_of_not_namesRegister _ hnot').1

theorem memWrite_blind {addr v : State → Int} (ha : ∀ s, addr (erasePredictor s) = addr s)
    (hv : ∀ s, v (erasePredictor s) = v s) :
    PredictorBlind fun s => memWrite s (addr s) (v s) := by
  intro s
  dsimp only
  rw [ha, hv]
  by_cases h : inData s.dmem (addr s) = true
  · rw [memWrite_of_inData _ h]
    exact memWrite_of_inData (s := erasePredictor s) _ h
  · rw [memWrite_of_not_inData _ h]
    exact memWrite_of_not_inData (s := erasePredictor s) _ h

theorem alu3_blind {f : State → Int → Int → Except Fault Int}
    (hf : ∀ s, f (erasePredictor s) = f s) (ops : List Operand) :
    PredictorBlind fun s => alu3 (f s) ops s :=
  .bind (fun _ => rfl) fun p => .bind (fun _ => rfl) fun a => .bind (fun _ => rfl) fun b =>
    .bind (fun s => by rw [hf]) fun v => writeReg_blind p.1 fun _ => rfl

theorem aluImm_blind {f : State → Int → Int → Int} (hf : ∀ s, f (erasePredictor s) = f s)
    (ops : List Operand) : PredictorBlind fun s => aluImm (f s) ops s :=
  .bind (fun _ => rfl) fun p => .bind (fun _ => rfl) fun a =>
    writeReg_blind p.1 fun s => by rw [hf]; rfl

theorem unary_blind {f : State → Int → Int} (hf : ∀ s, f (erasePredictor s) = f s)
    (ops : List Operand) : PredictorBlind fun s => unary (f s) ops s :=
  .bind (fun _ => rfl) fun p => .bind (fun _ => rfl) fun a => writeReg_blind p.1 fun s => by rw [hf]

theorem printArg_blind (event : Int → Event) (ops : List Operand) :
    PredictorBlind (printArg event ops) :=
  .bind (fun _ => rfl) fun _ => .bind (fun _ => rfl) fun _ => .ok fun _ => rfl

/-- The answer is that of the counter `draws`, which the erasure keeps (log 6). -/
theorem acceptInput_blind (answer : Nat → Int) :
    PredictorBlind fun s => acceptInput s (answer s.draws) := fun s =>
  (writeReg_blind (.sym s.cfg.sysResReg) (v := fun s => answer s.draws) fun _ => rfl).map
    (f := State.drawn) (fun _ => rfl) s

theorem readInput_blind (answer : Nat → Int) (ops : List Operand) :
    PredictorBlind (readInput answer ops) := by
  refine .bind (fun _ => rfl) fun _ s => ?_
  by_cases h : s.inputSilent = true
  · rw [if_pos h]
    exact if_pos h
  · rw [if_neg h]
    exact (if_neg h).trans (acceptInput_blind answer s)

/-! #### The lines -/

/-- The three ways a line runs, the same at every state: a unit's execution and the pc's advance, a
branch step of the Jump Unit, or an error. None of the three sees the predictor. -/
theorem exec_blind (i : Instr) :
    (unitOfLine i ≠ some .jump ∧
      ∃ r, (∀ s, exec i s = complete (r s)) ∧ PredictorBlind r) ∨
    (unitOfLine i = some .jump ∧
      ∃ x : State → Except Fault (Bool × Operand),
        (∀ s, exec i s = branchStep (x s) s) ∧ ∀ s, x (erasePredictor s) = x s) ∨
    (unitOfLine i ≠ some .jump ∧ ∃ e, ∀ s, exec i s = .fault e) := by
  cases i with
  | sectionLine _ | spaceLine _ _ | wordLine _ _ | labelLine _ =>
    exact .inl ⟨nofun, .ok, fun _ => rfl, .ok fun _ => rfl⟩
  | nop l ops =>
    exact .inl ⟨nofun, _, fun _ => rfl, .bind (fun _ => rfl) fun _ => .ok fun _ => rfl⟩
  | add l ops | sub l ops | div l ops | and l ops | or l ops | xor l ops | slt l ops | sllv l ops
  | srlv l ops | srav l ops =>
    exact .inl ⟨nofun, _, fun _ => rfl, alu3_blind (fun _ => rfl) ops⟩
  | addi l ops | andi l ops | ori l ops | xori l ops | slti l ops | sll l ops | srl l ops
  | sra l ops =>
    exact .inl ⟨nofun, _, fun _ => rfl, aluImm_blind (fun _ => rfl) ops⟩
  | not l ops | move l ops => exact .inl ⟨nofun, _, fun _ => rfl, unary_blind (fun _ => rfl) ops⟩
  | mult l ops =>
    exact .inl ⟨nofun, _, fun _ => rfl, .bind (fun _ => rfl) fun _ => .bind (fun _ => rfl) fun _ =>
      .bind (fun _ => rfl) fun _ => .ok fun _ => rfl⟩
  | lw l ops =>
    exact .inl ⟨nofun, _, fun _ => rfl, .bind (fun _ => rfl) fun _ => .bind (fun _ => rfl) fun _ =>
      .bind (fun _ => rfl) fun _ => writeReg_blind _ fun _ => rfl⟩
  | sw l ops =>
    exact .inl ⟨nofun, _, fun _ => rfl, .bind (fun _ => rfl) fun _ => .bind (fun _ => rfl) fun _ =>
      .bind (fun _ => rfl) fun _ => memWrite_blind (fun _ => rfl) fun _ => rfl⟩
  | la l ops =>
    exact .inl ⟨nofun, _, fun _ => rfl, .bind (fun _ => rfl) fun _ => .bind (fun _ => rfl) fun _ =>
      writeReg_blind _ fun _ => rfl⟩
  | li l ops | lui l ops | mfhi l ops | mflo l ops =>
    exact .inl ⟨nofun, _, fun _ => rfl, .bind (fun _ => rfl) fun _ => writeReg_blind _ fun _ => rfl⟩
  | mthi l ops | mtlo l ops =>
    exact .inl ⟨nofun, _, fun _ => rfl, .bind (fun _ => rfl) fun _ => .bind (fun _ => rfl) fun _ =>
      .ok fun _ => rfl⟩
  | printInt l ops | printChar l ops => exact .inl ⟨nofun, _, fun _ => rfl, printArg_blind _ ops⟩
  | readInt l ops | readChar l ops => exact .inl ⟨nofun, _, fun _ => rfl, readInput_blind _ ops⟩
  | beq l ops | bne l ops | bgt l ops | bge l ops | blt l ops | ble l ops | j l ops =>
    exact .inr (.inl ⟨rfl, _, fun _ => rfl, fun _ => rfl⟩)
  | exit l ops => exact .inr (.inr ⟨nofun, _, fun s => exec_exit s l ops⟩)
  | unknownOp l opcode ops => exact .inr (.inr ⟨nofun, _, fun _ => rfl⟩)

theorem complete_map_erasePredictor (x : Except Fault State) :
    complete (x.map erasePredictor) = eraseOutcome (complete x) := by
  cases x <;> rfl

theorem eraseOutcome_eraseOutcome (x : Host.Outcome State Fault Refusal) :
    eraseOutcome (eraseOutcome x) = eraseOutcome x := by
  cases x <;> rfl

/-- Where a branch goes is decided without the predictor; what it writes differs in the predictor
alone (46_cpu.md R279). -/
theorem branchStep_erasePredictor (x : Except Fault (Bool × Operand)) (s : State) :
    eraseOutcome (branchStep x (erasePredictor s)) = eraseOutcome (branchStep x s) := by
  cases x with
  | error e => rfl
  | ok r =>
    have hpc : branchPc (erasePredictor s) r.1 r.2 = branchPc s r.1 r.2 := rfl
    cases h : branchPc s r.1 r.2 with
    | error e =>
      rw [branchStep_of_branchPc_error h, branchStep_of_branchPc_error (hpc.trans h)]
    | ok newPc =>
      rw [branchStep_of_branchPc h, branchStep_of_branchPc (hpc.trans h)]
      rfl

theorem exec_erasePredictor (i : Instr) (s : State) :
    eraseOutcome (exec i (erasePredictor s)) = eraseOutcome (exec i s) := by
  obtain ⟨-, r, hr, hblind⟩ | ⟨-, x, hx, hblind⟩ | ⟨-, e, he⟩ := exec_blind i
  · rw [hr, hr, hblind, complete_map_erasePredictor, eraseOutcome_eraseOutcome]
  · rw [hx, hx, hblind, branchStep_erasePredictor]
  · rw [he, he]

/-! #### Steps and runs -/

theorem step_erasePredictor (s : State) :
    eraseOutcome (step (erasePredictor s)) = eraseOutcome (step s) := by
  have hfetch : fetch (erasePredictor s) = fetch s := rfl
  unfold step
  rw [hfetch]
  cases fetch s with
  | halted => rfl
  | line i => exact exec_erasePredictor i s
  | negative => rfl

theorem step_sameOutcome {s t : State} (h : sameArchitecture s t) :
    sameOutcome (step s) (step t) := by
  rw [sameOutcome_iff, ← step_erasePredictor s, sameArchitecture_iff.mp h, step_erasePredictor t]

theorem run_succ_of_next {M : Host.Core} {s u : M.State} (h : M.step s = .next u) (n : Nat) :
    M.run (n + 1) s = M.run n u := by
  rw [Host.Core.run, h]

/-- A run stops at the first step that has no next state. -/
theorem run_succ_of_stop {M : Host.Core} {s : M.State} (h : ∀ u, M.step s ≠ .next u) (n : Nat) :
    M.run (n + 1) s = M.step s := by
  rw [Host.Core.run]
  cases hs : M.step s with
  | next u => exact absurd hs (h u)
  | fault e => rfl
  | refused r => rfl

theorem sameOutcome_cases {x y : Host.Outcome State Fault Refusal} (h : sameOutcome x y) :
    (∃ u v, x = .next u ∧ y = .next v ∧ sameArchitecture u v) ∨
      ((∀ u, x ≠ .next u) ∧ ∀ v, y ≠ .next v) := by
  cases x with
  | next u =>
    cases y with
    | next v => exact .inl ⟨u, v, rfl, rfl, h⟩
    | fault | refused => exact h.elim
  | fault e =>
    cases y with
    | fault f => exact .inr (by simp)
    | next | refused => exact h.elim
  | refused r =>
    cases y with
    | refused q => exact .inr (by simp)
    | next | fault => exact h.elim

theorem run_sameOutcome (n : Nat) {s t : State} (h : sameArchitecture s t) :
    sameOutcome (Host.Core.run Sys2Proof.core n s) (Host.Core.run Sys2Proof.core n t) := by
  induction n generalizing s t with
  | zero => exact h
  | succ n ih =>
    have hstep := step_sameOutcome h
    obtain ⟨u, v, hu, hv, huv⟩ | ⟨hs, ht⟩ := sameOutcome_cases hstep
    · rw [run_succ_of_next (M := core) hu, run_succ_of_next (M := core) hv]
      exact ih huv
    · rw [run_succ_of_stop (M := core) hs, run_succ_of_stop (M := core) ht]
      exact hstep

/-- Two such machines that complete a Jump-Unit opcode decide it alike, at the same pc. -/
theorem jump_latches_same {i : Instr} (hjump : unitOfLine i = some .jump) {s t u v : State}
    (h : sameArchitecture s t) (hs : exec i s = .next u) (ht : exec i t = .next v) :
    u.lastOutcome = v.lastOutcome ∧ u.lastAddr = v.lastAddr := by
  have herase := sameArchitecture_iff.mp h
  obtain ⟨hnot, -⟩ | ⟨-, x, hx, hblind⟩ | ⟨hnot, -⟩ := exec_blind i
  · exact absurd hjump hnot
  · have hsame : x s = x t := by rw [← hblind s, herase, hblind t]
    obtain ⟨taken, target, newPc, hxs, -, rfl⟩ := branchStep_next ((hx s).symm.trans hs)
    obtain ⟨taken', target', newPc', hxt, -, rfl⟩ := branchStep_next ((hx t).symm.trans ht)
    cases hxs.symm.trans (hsame.trans hxt)
    have haddr : wrap s.cfg.xlen s.pc = wrap t.cfg.xlen t.pc :=
      congrArg (fun s => wrap s.cfg.xlen s.pc) herase
    exact ⟨rfl, haddr⟩
  · exact absurd hjump hnot

theorem exec_of_step_at_line {i : Instr} {s u : State} (hline : s.prog[s.pc.toNat]? = some i)
    (h : step s = .next u) : exec i s = .next u := by
  obtain ⟨hhalted, -⟩ | ⟨j, hj, hexec⟩ := step_next h
  · unfold fetch at hhalted
    split at hhalted
    · cases hhalted
    · rw [hline] at hhalted
      cases hhalted
  · obtain ⟨-, hj⟩ := fetch_line.mp hj
    cases hline.symm.trans hj
    exact hexec

/-- Settles O52: every step commutes with the erasure of the predictor, hence every run. -/
theorem thePredictorNeverAffectsExecution : Obligations.ThePredictorNeverAffectsExecution := by
  intro n s t h
  have hrun := run_sameOutcome n h
  refine ⟨hrun, fun s' t' u v i hs' ht' hline hjump hu hv => ?_⟩
  rw [hs', ht'] at hrun
  have hline' : t'.prog[t'.pc.toNat]? = some i := by
    rw [← hline]
    exact (congrArg (fun s => s.prog[s.pc.toNat]?) (sameArchitecture_iff.mp hrun)).symm
  exact jump_latches_same hjump hrun (exec_of_step_at_line hline hu)
    (exec_of_step_at_line hline' hv)

end Sys2Proof.Proofs
end

/-! ## The branch predictor: O45 to O51, O59 -/

section
namespace Sys2Proof.Proofs

open Sys2Proof Sys2Proof.Machine

/-! ### Keys and counters (45_branch_predictor.md R241, R242, R244) -/

theorem predictorKey_eq (c : Config) (address : Int) :
    predictorKey c address = (address % (2 : Int) ^ c.keyBits).toNat := by
  rw [predictorKey, pow2_eq_two_pow]

theorem predictorKey_lt (c : Config) (address : Int) : predictorKey c address < 2 ^ c.keyBits := by
  have hpos := pow2_pos c.keyBits
  have hlow := Int.emod_nonneg address hpos.ne'
  have hhigh := Int.emod_lt_of_pos address hpos
  unfold predictorKey pow2 at *
  omega

/-- Every key has a counter in a table of the right size. -/
theorem predictorKey_lt_length {c : Config} {b : Bht} (h : b.wf c = true) (address : Int) :
    predictorKey c address < b.ctr.length := by
  obtain ⟨hlen, -⟩ := bht_wf_iff.mp h
  exact (predictorKey_lt c address).trans_eq hlen.symm

theorem counter_le_ctrMax {c : Config} {b : Bht} (h : b.wf c = true) (address : Int) :
    b.counter (predictorKey c address) ≤ ctrMax c := by
  obtain ⟨-, hall⟩ := bht_wf_iff.mp h
  have hk := predictorKey_lt_length h address
  rw [Bht.counter, List.getD_eq_getElem _ _ hk]
  exact hall _ (List.getElem_mem hk)

/-- The threshold, without a fraction. At `CTR_BITS` 0 the one counter value is 0, which is not
taken. -/
theorem counterTaken_iff {c : Config} {n : Nat} (hn : n ≤ ctrMax c) :
    counterTaken c n = true ↔ ctrMax c < 2 * n := by
  rw [counterTaken, decide_eq_true_iff]
  unfold ctrMax at *
  generalize c.ctrBits = bits at *
  cases bits with
  | zero =>
    have hzero : n = 0 := by simpa using hn
    simp [hzero]
  | succ k =>
    have hpos := Nat.two_pow_pos k
    rw [Nat.add_sub_cancel, pow_succ]
    omega

theorem trainCounter_true (c : Config) (n : Nat) :
    trainCounter c n true = min (n + 1) (ctrMax c) := by
  simp only [trainCounter, clamp, if_true]
  split_ifs <;> omega

theorem trainCounter_false {c : Config} {n : Nat} (hn : n ≤ ctrMax c) :
    trainCounter c n false = n - 1 := by
  simp only [trainCounter, clamp, Bool.false_eq_true, if_false]
  split_ifs <;> omega

/-- Settles O45. The counter is below `2 ^ CTR_BITS`, so that its top bit is set from
`2 ^ (CTR_BITS - 1)` on. -/
theorem takenIsTheTopBitOfTheCounter : Obligations.TakenIsTheTopBitOfTheCounter := by
  intro c n hbits hn
  refine ⟨?_, ?_⟩
  · rw [counterTaken_iff hn, div_lt_iff₀ two_pos, mul_comm]
    exact_mod_cast Iff.rfl
  · obtain ⟨k, hk⟩ := Nat.exists_eq_add_of_le' hbits
    have hlt : n < 2 ^ (k + 1) := by
      have := Nat.two_pow_pos (k + 1)
      rw [ctrMax, hk] at hn
      omega
    rw [counterTaken, hk, Nat.add_sub_cancel]
    by_cases htop : 2 ^ k ≤ n
    · rw [decide_eq_true htop, Nat.testBit_of_two_pow_le_and_two_pow_add_one_gt htop hlt]
    · rw [decide_eq_false htop, Nat.testBit_lt_two_pow (by omega)]

/-! ### One history table -/

@[simp] theorem bhtUpdate_ctr (c : Config) (b : Bht) (address : Int) (outcome : Bool) :
    (bhtUpdate c b address outcome).1.ctr = b.ctr.set (predictorKey c address)
      (trainCounter c (b.counter (predictorKey c address)) outcome) := rfl

theorem bhtUpdate_correct (c : Config) (b : Bht) (address : Int) (outcome : Bool) :
    (bhtUpdate c b address outcome).1.correct =
      b.correct + if bhtPredict c b address = outcome then 1 else 0 := by
  simp only [bhtUpdate, bhtTrain]
  split <;> rfl

theorem bhtUpdate_incorrect (c : Config) (b : Bht) (address : Int) (outcome : Bool) :
    (bhtUpdate c b address outcome).1.incorrect =
      b.incorrect + if bhtPredict c b address = outcome then 0 else 1 := by
  simp only [bhtUpdate, bhtTrain]
  split <;> rfl

/-- Settles O46: the key, the threshold and the two clamped moves, each by its lemma. -/
theorem bhtUpdateTrainsOneCounter : Obligations.BhtUpdateTrainsOneCounter := by
  intro c b address outcome key prior hwf hkey hprior
  have hle := counter_le_ctrMax hwf address
  have hlt := predictorKey_lt_length hwf address
  rw [← predictorKey_eq] at hkey
  subst hkey
  have hpredict : bhtPredict c b address = prior := by
    rw [hprior, Bool.eq_iff_iff, decide_eq_true_iff]
    exact counterTaken_iff hle
  refine ⟨?_, hlt, ?_, ?_, hpredict, hpredict⟩
  · show b.ctr.set _ (trainCounter c _ outcome) = _
    cases outcome with
    | true => rw [trainCounter_true]; rfl
    | false => rw [trainCounter_false hle]; rfl
  · rw [bhtUpdate_correct, hpredict]
  · rw [bhtUpdate_incorrect, hpredict]

/-! ### Repeated updates of one key -/

theorem ctr_bhtUpdate_key {c : Config} {b : Bht} {address : Int} {n : Nat}
    (h : b.ctr[predictorKey c address]? = some n) (outcome : Bool) :
    (bhtUpdate c b address outcome).1.ctr[predictorKey c address]? =
      some (trainCounter c n outcome) := by
  obtain ⟨hlt, -⟩ := List.getElem?_eq_some_iff.mp h
  rw [bhtUpdate_ctr, List.getElem?_set_self hlt, Bht.counter, List.getD_eq_getElem?_getD, h]
  rfl

/-- The key's own counter is trained by each outcome in turn. -/
theorem ctr_foldl_bhtUpdate_key {c : Config} {address : Int} (outcomes : List Bool) {b : Bht}
    {n : Nat} (h : b.ctr[predictorKey c address]? = some n) :
    (outcomes.foldl (fun b o => (bhtUpdate c b address o).1) b).ctr[predictorKey c address]? =
      some (outcomes.foldl (trainCounter c) n) := by
  induction outcomes generalizing b n with
  | nil => exact h
  | cons o outcomes ih => exact ih (ctr_bhtUpdate_key h o)

theorem foldl_trainCounter_true (c : Config) (k : Nat) {n : Nat} (hn : n ≤ ctrMax c) :
    (List.replicate k true).foldl (trainCounter c) n = min (n + k) (ctrMax c) := by
  induction k generalizing n with
  | zero => exact (min_eq_left hn).symm
  | succ k ih =>
    rw [List.replicate_succ, List.foldl_cons, trainCounter_true, ih (min_le_right _ _)]
    omega

theorem foldl_trainCounter_false (c : Config) (k : Nat) {n : Nat} (hn : n ≤ ctrMax c) :
    (List.replicate k false).foldl (trainCounter c) n = n - k := by
  induction k generalizing n with
  | zero => rfl
  | succ k ih =>
    rw [List.replicate_succ, List.foldl_cons, trainCounter_false hn, ih (by omega)]
    omega

/-- Settles O47: after `k` outcomes the counter has moved `k` places toward its bound, or reached it. -/
theorem repeatedOutcomesSaturateTheCounter : Obligations.RepeatedOutcomesSaturateTheCounter := by
  intro c b address k hwf hk
  have hlt := predictorKey_lt_length hwf address
  have hcounter := List.getElem?_eq_getElem hlt
  obtain ⟨-, hall⟩ := bht_wf_iff.mp hwf
  have hle : b.ctr[predictorKey c address] ≤ ctrMax c := hall _ (List.getElem_mem hlt)
  have hmax : ctrMax c ≤ k := hk
  rw [← predictorKey_eq, ctr_foldl_bhtUpdate_key _ hcounter, ctr_foldl_bhtUpdate_key _ hcounter,
    foldl_trainCounter_true c k hle, foldl_trainCounter_false c k hle, min_eq_right (by omega),
    Nat.sub_eq_zero_of_le (hle.trans hmax)]
  exact ⟨rfl, rfl⟩

/-! ### The history (45_branch_predictor.md R250) -/

/-- The number a list of outcomes spells in binary, after the digits of `n`. -/
def binaryFrom (n : Nat) (updates : List (Int × Bool)) : Nat :=
  updates.foldl (fun n u => 2 * n + if u.2 then 1 else 0) n

theorem binaryFrom_eq (n : Nat) (updates : List (Int × Bool)) :
    binaryFrom n updates = n * 2 ^ updates.length + binaryFrom 0 updates := by
  induction updates generalizing n with
  | nil => simp [binaryFrom]
  | cons u updates ih =>
    have h := ih (2 * n + if u.2 then 1 else 0)
    have h0 := ih (2 * 0 + if u.2 then 1 else 0)
    simp only [binaryFrom, List.foldl_cons, List.length_cons] at *
    rw [h, h0]
    ring

theorem binaryFrom_zero_lt (updates : List (Int × Bool)) :
    binaryFrom 0 updates < 2 ^ updates.length := by
  induction updates with
  | nil => simp [binaryFrom]
  | cons u updates ih =>
    have h : binaryFrom 0 (u :: updates) = binaryFrom (if u.2 then 1 else 0) updates := by
      simp [binaryFrom]
    rw [h, binaryFrom_eq, List.length_cons, pow_succ]
    split <;> omega

theorem historyShift_eq (c : Config) (h : Nat) (outcome : Bool) :
    historyShift c h outcome = (2 * h + if outcome then 1 else 0) % 2 ^ c.histBits := rfl

/-- The history holds the low `HIST_BITS` digits of the outcomes so far. -/
theorem hist_foldl_cbpUpdate (updates : List (Int × Bool)) {s : State} {n : Nat}
    (h : s.hist = n % 2 ^ s.cfg.histBits) :
    (updates.foldl (fun s u => cbpUpdate s u.1 u.2) s).hist =
      binaryFrom n updates % 2 ^ s.cfg.histBits := by
  induction updates generalizing s n with
  | nil => exact h
  | cons u updates ih =>
    refine ih (s := cbpUpdate s u.1 u.2) ?_
    rw [cbpUpdate_hist, historyShift_eq, h, cbpUpdate_cfg]
    exact Nat.ModEq.add_right _ ((Nat.mod_modEq _ _).mul_left 2)

/-- Settles O48: of the digits spelled so far, the last `HIST_BITS` outcomes are the low ones. -/
theorem historyHoldsTheLastOutcomes : Obligations.HistoryHoldsTheLastOutcomes := by
  intro s updates hhist hlen
  have hlast : (updates.drop (updates.length - s.cfg.histBits)).length = s.cfg.histBits := by
    rw [List.length_drop]
    omega
  have hsplit : binaryFrom s.hist updates =
      binaryFrom (binaryFrom s.hist (updates.take (updates.length - s.cfg.histBits)))
        (updates.drop (updates.length - s.cfg.histBits)) := by
    rw [binaryFrom, binaryFrom, binaryFrom, ← List.foldl_append, List.take_append_drop]
  have hlt := binaryFrom_zero_lt (updates.drop (updates.length - s.cfg.histBits))
  rw [hist_foldl_cbpUpdate updates (Nat.mod_eq_of_lt hhist).symm, hsplit, binaryFrom_eq, hlast,
    Nat.mul_add_mod_self_right]
  rw [hlast] at hlt
  exact Nat.mod_eq_of_lt hlt

/-! ### The combined predictor (45_branch_predictor.md R247 to R249) -/

theorem hist_lt_length {s : State} (h : predictorWf s = true) : s.hist < s.bhts.length := by
  obtain ⟨hlen, hhist, -⟩ := predictorWf_iff.mp h
  omega

theorem getElem?_hist {s : State} (h : predictorWf s = true) :
    s.bhts[s.hist]? = some s.activeBht := by
  have hlt := hist_lt_length h
  rw [State.activeBht, List.getD_eq_getElem _ _ hlt, List.getElem?_eq_getElem hlt]

/-- Settles O49: the update modifies the list of tables at the history alone. -/
theorem cbpUpdateTouchesOnlyTheActiveTable : Obligations.CbpUpdateTouchesOnlyTheActiveTable := by
  intro s address outcome hwf
  refine ⟨?_, fun h hne => ?_, rfl⟩
  · rw [cbpUpdate_bhts, List.getElem?_modify_eq, getElem?_hist hwf]
    rfl
  · rw [cbpUpdate_bhts, List.getElem?_modify_ne _ _ hne.symm]

/-- Settles O59: the key's counter is there, and its threshold is that of R242. -/
theorem predictionsReadTheKeyedCounter : Obligations.PredictionsReadTheKeyedCounter := by
  intro s address hbits hwf
  obtain ⟨-, -, hall⟩ := predictorWf_iff.mp hwf
  rw [← predictorKey_eq]
  refine ⟨rfl, fun b hb => ?_, s.activeBht, getElem?_hist hwf, rfl⟩
  have hlt := predictorKey_lt_length (hall b hb) address
  have hle := counter_le_ctrMax (hall b hb) address
  refine ⟨b.counter (predictorKey s.cfg address), ?_, ?_⟩
  · rw [Bht.counter, List.getD_eq_getElem _ _ hlt, List.getElem?_eq_getElem hlt]
  · have hmax : (ctrMax s.cfg : Rat) = 2 ^ s.cfg.ctrBits - 1 := by
      rw [ctrMax, Nat.cast_sub Nat.one_le_two_pow]
      norm_num
    rw [← hmax]
    exact (takenIsTheTopBitOfTheCounter s.cfg _ hbits hle).1

/-! ### Counting updates (45_branch_predictor.md R255) -/

/-- One update counts one tally up (45_branch_predictor.md R244). -/
theorem updates_bhtUpdate (c : Config) (b : Bht) (address : Int) (outcome : Bool) :
    (bhtUpdate c b address outcome).1.updates = b.updates + 1 := by
  rw [Bht.updates, Bht.updates, bhtUpdate_correct, bhtUpdate_incorrect]
  split <;> omega

theorem sum_updates_modify {f : Bht → Bht} (hf : ∀ b, (f b).updates = b.updates + 1)
    (tables : List Bht) {k : Nat} (hk : k < tables.length) :
    ((tables.modify k f).map Bht.updates).sum = (tables.map Bht.updates).sum + 1 := by
  induction tables generalizing k with
  | nil => cases hk
  | cons b tables ih =>
    cases k with
    | zero => simp [hf]; omega
    | succ k => simp [ih (Nat.lt_of_succ_lt_succ hk)]; omega

theorem totalUpdates_branchTo {s : State} (h : predictorWf s = true) (newPc : Int) (taken : Bool) :
    totalUpdates (branchTo s newPc taken) = totalUpdates s + 1 :=
  sum_updates_modify (fun _ => updates_bhtUpdate _ _ _ _) s.bhts (hist_lt_length h)

theorem UnitWrites.bhts_frame {s t : State} (h : UnitWrites s t) : t.bhts = s.bhts := by
  induction h with
  | unchanged => rfl
  | setReg _ _ _ ih | setHi _ _ ih | setLo _ _ ih | setWord _ _ _ ih | emit _ _ ih | drawn _ ih =>
    exact ih

/-- A completed Jump-Unit opcode is a branch step (46_cpu.md R279). -/
theorem exec_branchTo_of_jump {i : Instr} {s t : State} (hjump : unitOfLine i = some .jump)
    (h : exec i s = .next t) : ∃ newPc taken, t = branchTo s newPc taken := by
  obtain ⟨hnot, -⟩ | ⟨-, x, hx, -⟩ | ⟨hnot, -⟩ := exec_blind i
  · exact absurd hjump hnot
  · exact branchStep_branchTo ((hx s).symm.trans h)
  · exact absurd hjump hnot

/-- Settles O50: a Jump-Unit opcode is a branch step, with its one update; every other line leaves the
tables. -/
theorem oneUpdatePerCompletedJump : Obligations.OneUpdatePerCompletedJump := by
  intro i s t hwf h
  by_cases hjump : unitOfLine i = some .jump
  · rw [if_pos hjump]
    obtain ⟨newPc, taken, rfl⟩ := exec_branchTo_of_jump hjump h
    exact totalUpdates_branchTo hwf newPc taken
  · rw [if_neg hjump, add_zero]
    obtain ⟨u, hu, rfl⟩ | ⟨hyes, -⟩ := exec_next h
    · rw [totalUpdates, totalUpdates, advance_bhts, hu.bhts_frame]
    · exact absurd hyes hjump

/-! ### Accuracies (45_branch_predictor.md R246, R252) -/

/-- A table's factor in the aggregate: its share of correct updates, 1 for an idle table. -/
def updateShare (b : Bht) : Rat := if b.updates = 0 then 1 else (b.correct : Rat) / (b.updates : Rat)

theorem cast_updates (b : Bht) : (b.updates : Rat) = b.correct + b.incorrect := Nat.cast_add _ _

theorem updateShare_eq (b : Bht) : updateShare b = if b.correct + b.incorrect = 0 then 1
    else (b.correct : Rat) / ((b.correct : Rat) + (b.incorrect : Rat)) := by
  rw [updateShare, cast_updates]
  rfl

theorem updateShare_of_idle {b : Bht} (h : b.updates = 0) : updateShare b = 1 := if_pos h

theorem correct_div_updates_mem (b : Bht) :
    0 ≤ (b.correct : Rat) / (b.updates : Rat) ∧ (b.correct : Rat) / (b.updates : Rat) ≤ 1 := by
  have hle : (b.correct : Rat) ≤ (b.updates : Rat) := by
    exact_mod_cast Nat.le_add_right b.correct b.incorrect
  exact ⟨by positivity, div_le_one_of_le₀ hle (Nat.cast_nonneg _)⟩

theorem bhtAccuracy_mem (b : Bht) : 0 ≤ bhtAccuracy b ∧ bhtAccuracy b ≤ 1 := by
  unfold bhtAccuracy
  split
  · exact ⟨le_rfl, zero_le_one⟩
  · exact correct_div_updates_mem b

theorem updateShare_mem (b : Bht) : 0 ≤ updateShare b ∧ updateShare b ≤ 1 := by
  unfold updateShare
  split
  · exact ⟨zero_le_one, le_rfl⟩
  · exact correct_div_updates_mem b

theorem aggregateAccuracy_eq_prod (s : State) :
    aggregateAccuracy s = (s.bhts.map updateShare).prod := by
  have hfactor (b : Bht) : (if b.updates = 0 then 1 else bhtAccuracy b) = updateShare b := by
    unfold bhtAccuracy updateShare
    split <;> rfl
  simp only [aggregateAccuracy, hfactor, List.prod_eq_foldl, List.foldl_map]

theorem prod_updateShare_mem (tables : List Bht) :
    0 ≤ (tables.map updateShare).prod ∧ (tables.map updateShare).prod ≤ 1 := by
  induction tables with
  | nil => simp
  | cons b tables ih =>
    obtain ⟨h0, h1⟩ := updateShare_mem b
    obtain ⟨ih0, ih1⟩ := ih
    rw [List.map_cons, List.prod_cons]
    exact ⟨mul_nonneg h0 ih0, mul_le_one₀ h1 ih0 ih1⟩

theorem prod_updateShare_filter (tables : List Bht) :
    ((tables.filter fun b => decide (b.updates ≠ 0)).map updateShare).prod =
      (tables.map updateShare).prod := by
  induction tables with
  | nil => rfl
  | cons b tables ih =>
    by_cases h : b.updates = 0
    · simp [h, updateShare_of_idle h, ← ih]
    · simp [h, ← ih]

/-- Settles O51: a table's accuracy by its definition; the aggregate as the product of the tables'
factors, an idle one's being 1. -/
theorem accuraciesAreShares : Obligations.AccuraciesAreShares := by
  intro s b
  obtain ⟨h0, h1⟩ := bhtAccuracy_mem b
  obtain ⟨hprod0, hprod1⟩ := prod_updateShare_mem s.bhts
  refine ⟨h0, h1, fun hidle => if_pos hidle, fun hbusy => ?_, ?_, ?_, ?_, ?_⟩
  · have hne : (b.updates : Rat) ≠ 0 := Nat.cast_ne_zero.mpr hbusy
    have hshare : bhtAccuracy b = (b.correct : Rat) / b.updates := if_neg hbusy
    rw [hshare, ← cast_updates, div_mul_cancel₀ _ hne]
  · rw [aggregateAccuracy_eq_prod, funext updateShare_eq]
  · rwa [aggregateAccuracy_eq_prod]
  · rwa [aggregateAccuracy_eq_prod]
  · rw [aggregateAccuracy_eq_prod, aggregateAccuracy_eq_prod, prod_updateShare_filter]

end Sys2Proof.Proofs
end

/-! ## STEP, RUN, `load` and LOAD: O38 to O40, O43, O53, O54, O56, O57 -/

section
namespace Sys2Proof.Proofs

open Sys2Proof Sys2Proof.Machine

/-! ### One step (46_cpu.md R274) -/

/-- When a fetch finds the terminal condition. -/
theorem fetch_halted_iff {s : State} :
    fetch s = .halted ↔ 0 ≤ s.pc ∧ (s.prog.length : Int) ≤ s.pc := by
  unfold fetch
  split
  · exact iff_of_false nofun (by omega)
  · split
    · next hline =>
      have hlt := (List.getElem?_eq_some_iff.mp hline).1
      exact iff_of_false nofun (by omega)
    · next hline =>
      have hle := List.getElem?_eq_none_iff.mp hline
      exact iff_of_true rfl (by omega)

theorem step_of_fetch_line {s : State} {i : Instr} (h : fetch s = .line i) :
    step s = exec i s := by
  simp [step, h]

theorem step_of_fetch_halted {s : State} (h : fetch s = .halted) : step s = .next s := by
  simp [step, h]

/-- Settles O38: at such a pc the fetch finds the line. -/
theorem stepRunsTheLineAtThePc : Obligations.StepRunsTheLineAtThePc :=
  fun _ _ h0 hline => step_of_fetch_line (fetch_line.mpr ⟨h0, hline⟩)

/-- A state that a step answers unchanged is the end of every run from it. -/
theorem run_of_step_self {M : Host.Core} {s : M.State} (h : M.step s = .next s) (n : Nat) :
    M.run n s = .next s := by
  induction n with
  | zero => rfl
  | succ n ih => rw [run_succ_of_next h, ih]

/-! ### The STEP command (46_cpu.md R281, R283) -/

theorem halted_iff {s : State} : s.halted = true ↔ (s.prog.length : Int) ≤ s.pc := by
  simp [State.halted]

/-- What the STEP command can do: answer HALTED at the terminal condition, or else what the step
leaves, after a failure the state before it. -/
theorem commandStep_some {s t : State} {r : Status} (h : command .step s = some (r, t)) :
    (s.halted = true ∧ r = .halted ∧ t = s) ∨ s.halted = false ∧
      ((r = .ok ∧ step s = .next t) ∨ (∃ e, r = .error e ∧ step s = .fault e ∧ t = s) ∨
        ∃ q, r = .refused q ∧ step s = .refused q ∧ t = s) := by
  unfold command at h
  dsimp only at h
  split at h
  · cases h; exact .inl ⟨‹_›, rfl, rfl⟩
  · refine .inr ⟨by simpa using ‹¬ s.halted = true›, ?_⟩
    unfold settle at h
    split at h
    · cases h; exact .inl ⟨rfl, ‹_›⟩
    · cases h
    · cases h; exact .inr (.inl ⟨_, rfl, ‹_›, rfl⟩)
    · cases h; exact .inr (.inr ⟨_, rfl, ‹_›, rfl⟩)

theorem commandStep_ok {s t : State} (h : command .step s = some (.ok, t)) :
    step s = .next t := by
  obtain ⟨-, hstep⟩ : s.halted = false ∧ step s = .next t := by simpa using commandStep_some h
  exact hstep

theorem commandStep_halted {s t : State} (h : command .step s = some (.halted, t)) :
    s.halted = true ∧ t = s := by
  simpa using commandStep_some h

theorem commandStep_error {s t : State} {e : Fault} (h : command .step s = some (.error e, t)) :
    step s = .fault e ∧ t = s := by
  obtain ⟨-, hstep⟩ : s.halted = false ∧ step s = .fault e ∧ t = s := by
    simpa using commandStep_some h
  exact hstep

/-- Settles O39: the fetch finds the terminal condition, and a step that answers its own state answers
it at every repetition. -/
theorem aHaltedMachineStaysAsItIs : Obligations.AHaltedMachineStaysAsItIs := by
  intro s h0 hend
  have hstep : step s = .next s := step_of_fetch_halted (fetch_halted_iff.mpr ⟨h0, hend⟩)
  exact ⟨hstep, if_pos (halted_iff.mpr hend), run_of_step_self (M := core) hstep⟩

/-- Settles O40: the state is the one before, hence so is the next STEP. -/
theorem aFailedStepChangesNothing : Obligations.AFailedStepChangesNothing := by
  intro s t e h
  obtain ⟨-, rfl⟩ := commandStep_error h
  exact ⟨rfl, h⟩

/-! ### RUN (46_cpu.md R282, R284) -/

theorem runEnds_ne_ok {s t : State} {r : Status} (h : RunEnds s r t) : r ≠ .ok := by
  induction h with
  | stop _ hr => exact hr
  | go _ _ ih => exact ih

/-- A run's end is a state it reaches by steps, where the STEP command returns the run's status. -/
theorem runEnds_last {s t : State} {r : Status} (h : RunEnds s r t) :
    ∃ u, Reaches s u ∧ command .step u = some (r, t) := by
  induction h with
  | stop hc _ => exact ⟨_, .here _, hc⟩
  | go hc _ ih =>
    obtain ⟨u, hreach, hlast⟩ := ih
    exact ⟨u, .step (commandStep_ok hc) hreach, hlast⟩

theorem runEnds_unique {s t u : State} {r q : Status} (h : RunEnds s r t) (h' : RunEnds s q u) :
    q = r ∧ u = t := by
  induction h with
  | stop hc hr =>
    cases h' with
    | stop hc' _ => cases hc.symm.trans hc'; exact ⟨rfl, rfl⟩
    | go hc' _ => cases hc.symm.trans hc'; exact absurd rfl hr
  | go hc _ ih =>
    cases h' with
    | stop hc' hq => cases hc.symm.trans hc'; exact absurd rfl hq
    | go hc' hrest => cases hc.symm.trans hc'; exact ih hrest

/-- Within the invariant the terminal condition is the program's end (10_state.md R26). -/
theorem pc_eq_length_of_halted {s : State} (hs : s.wf = true) (h : s.halted = true) :
    s.pc = s.prog.length := by
  obtain ⟨-, -, hprog, -⟩ := state_wf_iff.mp hs
  obtain ⟨-, hle, -⟩ := programWf_iff.mp hprog
  exact le_antisymm hle (halted_iff.mp h)

/-- Settles O57: the STEP command is a function, so a run's steps are determined; what its end is, the
last command says. -/
theorem aRunHasOneEnd : Obligations.ARunHasOneEnd := by
  intro s t u r q h
  obtain ⟨v, hreach, hlast⟩ := runEnds_last h
  refine ⟨runEnds_ne_ok h, runEnds_unique h, fun hs hr => ?_, fun e hr => ?_⟩
  · subst hr
    obtain ⟨hhalted, rfl⟩ := commandStep_halted hlast
    exact pc_eq_length_of_halted (reaches_keeps_wf hs hreach) hhalted
  · subst hr
    obtain ⟨hstep, rfl⟩ := commandStep_error hlast
    exact hstep

/-! ### The checks of `load` (46_cpu.md R271) -/

/-- A label that the check reports is one of the program's. -/
theorem firstRepeated_mem {seen labels : List Text} {l : Text}
    (h : firstRepeated seen labels = some l) : l ∈ labels := by
  induction labels generalizing seen with
  | nil => cases h
  | cons l' rest ih =>
    unfold firstRepeated at h
    split at h
    · cases h; exact List.mem_cons_self
    · exact List.mem_cons_of_mem _ (ih h)

/-- Different labels, none of them seen before, pass the check. -/
theorem firstRepeated_of_nodup {seen labels : List Text} (h : labels.Nodup)
    (hseen : ∀ l ∈ labels, l ∉ seen) : firstRepeated seen labels = none := by
  induction labels generalizing seen with
  | nil => rfl
  | cons l rest ih =>
    obtain ⟨hl, hnodup⟩ := List.nodup_cons.mp h
    obtain ⟨hlseen, hrest⟩ := List.forall_mem_cons.mp hseen
    have hcheck : seen.contains l = false := by simpa using hlseen
    simp only [firstRepeated, hcheck, Bool.false_eq_true, if_false]
    refine ih hnodup fun l' hl' hmem => ?_
    obtain rfl | hmem := List.mem_cons.mp hmem
    · exact hl hl'
    · exact hrest l' hl' hmem

/-- The check of a program's labels, as `load` makes it. -/
theorem firstRepeated_nil_eq_none_iff {labels : List Text} :
    firstRepeated [] labels = none ↔ labels.Nodup :=
  ⟨fun h => (firstRepeated_none h).1, fun h => firstRepeated_of_nodup h fun _ _ => nofun⟩

/-- The start index counts the lines before the first `.text` marker. -/
theorem findIdx?_isTextMarker {before rest : List Instr} {m : Instr}
    (hbefore : ∀ i ∈ before, isTextMarker i = false) (hm : isTextMarker m = true) :
    (before ++ m :: rest).findIdx? isTextMarker = some before.length := by
  have hnone : before.findIdx? isTextMarker = none := List.findIdx?_eq_none_iff.mpr hbefore
  simp [List.findIdx?_append, hnone, List.findIdx?_cons, hm]

/-- Settles O53, check by check. -/
theorem loadChecksComeInOrder : Obligations.LoadChecksComeInOrder := by
  intro s program
  refine ⟨fun hlong => if_pos hlong, fun hfits => ⟨fun hnone => ?_, ?_⟩⟩
  · have hmarker : program.findIdx? isTextMarker = none := List.findIdx?_eq_none_iff.mpr hnone
    simp [load, not_lt.mpr hfits, hmarker, raise]
  · intro before rest m hsplit hbefore hm
    have hmarker : program.findIdx? isTextMarker = some before.length :=
      hsplit ▸ findIdx?_isTextMarker hbefore hm
    have hlast : before.length + 1 = program.length ↔ rest = [] := by
      rw [hsplit, List.length_append, List.length_cons, ← List.length_eq_zero_iff]
      omega
    refine ⟨fun hrest => ?_, fun hrest hdup => ?_, fun hrest hnodup => ?_⟩
    · simp [load, not_lt.mpr hfits, hmarker, hlast.mpr hrest, raise]
    · obtain ⟨l, hl⟩ := Option.ne_none_iff_exists'.mp (mt firstRepeated_nil_eq_none_iff.mp hdup)
      refine ⟨l, firstRepeated_mem hl, ?_⟩
      simp [load, not_lt.mpr hfits, hmarker, mt hlast.mp hrest, hl, raise]
    · have hpass := firstRepeated_nil_eq_none_iff.mpr hnodup
      simp [load, not_lt.mpr hfits, hmarker, mt hlast.mp hrest, hpass]

/-! ### Data registration (46_cpu.md R272) -/

theorem registerData_append (before rest : List Instr) (s : State) :
    registerData (before ++ rest) s = registerData rest (registerData before s) := by
  simp [registerData]

theorem registerData_cons_of_decl {i : Instr} {l : Text} {values : List Int}
    (h : i.dataDecl = some (l, values)) (rest : List Instr) (s : State) :
    registerData (i :: rest) s = registerData rest (appendData s l values) := by
  simp [registerData, h]

theorem registerData_cons_of_no_decl {i : Instr} (h : i.dataDecl = none) (rest : List Instr)
    (s : State) : registerData (i :: rest) s = registerData rest s := by
  simp [registerData, h]

/-- What every declaration keeps, data registration keeps. -/
theorem registerData_keeps {P : State → Prop}
    (happend : ∀ s l values, P s → P (appendData s l values)) (program : List Instr) {s : State}
    (h : P s) : P (registerData program s) := by
  induction program generalizing s with
  | nil => exact h
  | cons i rest ih =>
    cases hd : i.dataDecl with
    | none => exact registerData_cons_of_no_decl hd rest s ▸ ih h
    | some d => exact registerData_cons_of_decl hd rest s ▸ ih (happend s d.1 d.2 h)

/-- Data registration writes the data segment and its labels, and nothing else. -/
theorem registerData_frame (program : List Instr) (s : State) :
    registerData program s =
      { s with
        dmem := (registerData program s).dmem
        dlabel := (registerData program s).dlabel } :=
  registerData_keeps (P := fun u => u = { s with dmem := u.dmem, dlabel := u.dlabel })
    (fun _ _ _ h => by rw [h]; rfl) program rfl

/-- The declared words, wrapped, follow one another at the segment's end. -/
theorem registerData_dmem (program : List Instr) (s : State) :
    (registerData program s).dmem = s.dmem ++
      ((program.filterMap Instr.dataDecl).map Prod.snd).flatten.map (wrap s.cfg.xlen) := by
  induction program generalizing s with
  | nil => simp [registerData]
  | cons i rest ih =>
    cases hd : i.dataDecl with
    | none => rw [registerData_cons_of_no_decl hd, ih]; simp [hd]
    | some d => rw [registerData_cons_of_decl hd, ih]; simp [hd]

/-- A label under which a program declares nothing keeps its base. -/
theorem lookup_registerData_of_not_mem {program : List Instr} {l : Text}
    (h : l ∉ (program.filterMap Instr.dataDecl).map Prod.fst) (s : State) :
    (registerData program s).dlabel.lookup l = s.dlabel.lookup l := by
  induction program generalizing s with
  | nil => rfl
  | cons i rest ih =>
    cases hd : i.dataDecl with
    | none =>
      rw [registerData_cons_of_no_decl hd]
      exact ih (by simpa [hd] using h) s
    | some d =>
      obtain ⟨hne, hrest⟩ : l ≠ d.1 ∧ l ∉ (rest.filterMap Instr.dataDecl).map Prod.fst := by
        simpa [hd] using h
      rw [registerData_cons_of_decl hd, ih hrest, appendData_dlabel, lookup_put_ne _ _ hne]

/-- A label that no line of a program carries is declared by none. -/
theorem not_mem_declared {program : List Instr} {l : Text} (h : l ∉ programLabels program) :
    l ∉ (program.filterMap Instr.dataDecl).map Prod.fst :=
  fun hl => h ((dataDecl_labels_sublist program).subset hl)

/-- A declaration's label has the base where its words begin, if no later line carries it. -/
theorem lookup_registerData_of_decl {before rest : List Instr} {i : Instr} {l : Text}
    {values : List Int} (hd : i.dataDecl = some (l, values)) (hrest : l ∉ programLabels rest)
    (s : State) :
    (registerData (before ++ i :: rest) s).dlabel.lookup l =
      some (s.dmem.length + ((before.filterMap Instr.dataDecl).map fun d => d.2.length).sum) := by
  rw [registerData_append, registerData_cons_of_decl hd,
    lookup_registerData_of_not_mem (not_mem_declared hrest), appendData_dlabel, lookup_put_same,
    registerData_dmem]
  simp [List.length_flatten, Function.comp_def]

/-! ### Code labels (46_cpu.md R273) -/

theorem codeLabels_cons_of_label {i : Instr} {l : Text} (h : i.lineLabel = some l) (k : Nat)
    (rest : List Instr) (m : LabelMap) :
    codeLabels k (i :: rest) m = codeLabels (k + 1) rest (LabelMap.put m l k) := by
  simp [codeLabels, h]

theorem codeLabels_cons_of_no_label {i : Instr} (h : i.lineLabel = none) (k : Nat)
    (rest : List Instr) (m : LabelMap) :
    codeLabels k (i :: rest) m = codeLabels (k + 1) rest m := by
  simp [codeLabels, h]

/-- A label that no line carries keeps its index. -/
theorem lookup_codeLabels_of_not_mem {program : List Instr} {l : Text}
    (h : l ∉ programLabels program) (k : Nat) (m : LabelMap) :
    (codeLabels k program m).lookup l = m.lookup l := by
  unfold programLabels at h
  induction program generalizing k m with
  | nil => rfl
  | cons i rest ih =>
    cases hl : i.lineLabel with
    | none =>
      rw [codeLabels_cons_of_no_label hl]
      exact ih (by simpa [hl] using h) _ _
    | some l' =>
      obtain ⟨hne, hrest⟩ : l ≠ l' ∧ l ∉ rest.filterMap Instr.lineLabel := by
        simpa [hl] using h
      rw [codeLabels_cons_of_label hl, ih hrest, lookup_put_ne _ _ hne]

/-- A line's label has the line's index, if no later line carries it. -/
theorem lookup_codeLabels_of_label {before rest : List Instr} {i : Instr} {l : Text}
    (hl : i.lineLabel = some l) (hrest : l ∉ programLabels rest) (k : Nat) (m : LabelMap) :
    (codeLabels k (before ++ i :: rest) m).lookup l = some (k + before.length) := by
  induction before generalizing k m with
  | nil =>
    rw [List.nil_append, codeLabels_cons_of_label hl, lookup_codeLabels_of_not_mem hrest,
      lookup_put_same, List.length_nil, Nat.add_zero]
  | cons j before ih =>
    have hindex : k + 1 + before.length = k + (j :: before).length := by
      rw [List.length_cons]; omega
    rw [List.cons_append, ← hindex]
    cases hj : j.lineLabel with
    | none => rw [codeLabels_cons_of_no_label hj, ih]
    | some l' => rw [codeLabels_cons_of_label hj, ih]

/-- The entries of a map after a put are its own and the one put. -/
theorem mem_put {m : LabelMap} {label : Text} {index : Nat} {e : Text × Nat}
    (h : e ∈ LabelMap.put m label index) : e ∈ m ∨ e = (label, index) := by
  induction m with
  | nil => exact .inr (by simpa [LabelMap.put] using h)
  | cons f rest ih =>
    obtain ⟨head, k⟩ := f
    unfold LabelMap.put at h
    split at h
    · next hhead =>
      obtain rfl | hrest := List.mem_cons.mp h
      · exact .inr (hhead ▸ rfl)
      · exact .inl (List.mem_cons_of_mem _ hrest)
    · obtain rfl | hrest := List.mem_cons.mp h
      · exact .inl List.mem_cons_self
      · exact (ih hrest).imp_left (List.mem_cons_of_mem _)

/-- Every index of the code label map is a line's. -/
theorem codeLabels_lt {program : List Instr} {k : Nat} {m : LabelMap}
    (hm : ∀ e ∈ m, e.2 < k + program.length) :
    ∀ e ∈ codeLabels k program m, e.2 < k + program.length := by
  induction program generalizing k m with
  | nil => exact hm
  | cons i rest ih =>
    have hlength : k + (i :: rest).length = k + 1 + rest.length := by
      rw [List.length_cons]; omega
    rw [hlength] at hm ⊢
    cases hl : i.lineLabel with
    | none => exact codeLabels_cons_of_no_label hl k rest m ▸ ih hm
    | some l =>
      refine codeLabels_cons_of_label hl k rest m ▸ ih fun e he => ?_
      obtain he | rfl := mem_put he
      · exact hm e he
      · dsimp only; omega

/-! ### What a successful load leaves (46_cpu.md R270) -/

/-- The labels of a program around one line that carries one, where no label is repeated. -/
theorem label_of_line_once {before rest : List Instr} {i : Instr} {l : Text}
    (hnodup : (programLabels (before ++ i :: rest)).Nodup) (hl : i.lineLabel = some l) :
    l ∉ programLabels before ∧ l ∉ programLabels rest := by
  have hsplit : programLabels (before ++ i :: rest) =
      programLabels before ++ l :: programLabels rest := by simp [programLabels, hl]
  rw [hsplit, List.nodup_middle, List.nodup_cons, List.mem_append, not_or] at hnodup
  exact hnodup.1

/-- A program that `load` admits has its lines' indices in the register range, so that the write of
its start index leaves the index as it is. -/
theorem wrap_start_of_fits {n m length : Nat} (hm : m < length) (hfits : (length : Int) ≤ maxVal n) :
    wrap n ((m + 1 : Nat) : Int) = ((m + 1 : Nat) : Int) := by
  have hn : 1 ≤ n := by
    by_contra hn
    obtain rfl : n = 0 := by omega
    have hmax : maxVal 0 = 0 := rfl
    omega
  have hpos := pow2_pos (n - 1)
  exact wrap_of_range hn (by unfold minVal; omega) (by omega)

/-- The installed program, its start index and its code labels; the rest is the registered data's. -/
theorem installProgram_eq (program : List Instr) (start : Nat) (s : State) :
    installProgram program start s =
      { s with
        prog := program
        textStart := start
        pc := wrap s.cfg.xlen start
        dmem := (registerData program { s with prog := program, textStart := start }).dmem
        dlabel := (registerData program { s with prog := program, textStart := start }).dlabel
        clabel := codeLabels 0 program [] } := by
  unfold installProgram
  rw [registerData_frame]
  rfl

/-- Settles O54: the start index by the search for the marker, the pc by the bound on the program's
length, the maps by where the one line of a label stands, the rest by the frame of the installation. -/
theorem loadBuildsTheProgramsTables : Obligations.LoadBuildsTheProgramsTables := by
  intro s t program h
  obtain ⟨m, hfits, hfind, -, hlabels, ht⟩ := load_next h
  obtain ⟨hm, hmarker, hfirst⟩ := List.findIdx?_eq_some_iff_getElem.mp hfind
  have hnodup := firstRepeated_nil_eq_none_iff.mp hlabels
  rw [installProgram_eq] at ht
  subst ht
  refine ⟨rfl, wrap_start_of_fits hm hfits, ⟨m, rfl, ?_, fun k hk => ?_⟩, ?_, ?_, ?_, ?_, ?_, rfl⟩
  · simp [List.getElem?_eq_getElem hm, hmarker]
  · have hk' : k < program.length := hk.trans hm
    simpa [List.getElem?_eq_getElem hk'] using hfirst k hk
  · exact registerData_dmem program _
  · rintro before rest i l rfl hl
    obtain ⟨-, hrest⟩ := label_of_line_once hnodup hl
    simpa using lookup_codeLabels_of_label hl hrest 0 []
  · rintro before rest i l values rfl hd
    obtain ⟨-, hrest⟩ := label_of_line_once hnodup (lineLabel_of_dataDecl hd)
    exact (lookup_registerData_of_decl hd hrest _).trans (by simp)
  · rintro before rest i l rfl hl hd
    obtain ⟨hbefore, hrest⟩ := label_of_line_once hnodup hl
    refine lookup_registerData_of_not_mem ?_ _
    rw [List.filterMap_append, List.filterMap_cons_none hd, List.map_append, List.mem_append]
    exact not_or.mpr ⟨not_mem_declared hbefore, not_mem_declared hrest⟩
  · exact fun l hl => ⟨lookup_codeLabels_of_not_mem hl 0 [],
      lookup_registerData_of_not_mem (not_mem_declared hl) _⟩

/-! ### `reset` and `load` keep the invariant (46_cpu.md R270, 70_reset_and_hazards.md R330) -/

theorem resetBlock_keeps_wf {s : State} (h : s.wf = true) : (resetBlock s).wf = true := by
  obtain ⟨hc, hregs, -, -, hpred⟩ := state_wf_iff.mp h
  obtain ⟨hlen, -⟩ := registersWf_iff.mp hregs
  have hzero := inRange_zero s.cfg
  have hregs' : registersWf (resetBlock s) = true :=
    registersWf_iff.mpr ⟨(List.length_map _).trans hlen, by simp [hzero], hzero, hzero, hzero,
      inRange_wrap hc _⟩
  have hprog' : programWf (resetBlock s) = true :=
    programWf_iff.mpr ⟨le_rfl, le_rfl, (inRange_iff.mp hzero).2, nofun, le_rfl⟩
  have hdata' : dataWf (resetBlock s) = true := dataWf_iff.mpr ⟨rfl, nofun⟩
  have hpred' : predictorWf (resetBlock s) = true := by
    refine predictorWf_iff.mpr ?_
    rw [resetBlock_bhts_of_wf hpred]
    exact ⟨List.length_replicate, Nat.two_pow_pos _,
      fun b hb => (List.eq_of_mem_replicate hb).symm ▸ bht_zero_wf s.cfg⟩
  exact state_wf_iff.mpr ⟨hc, hregs', hprog', hdata', hpred'⟩

/-- A declaration keeps the words in range and every base within the segment. -/
theorem appendData_keeps_dataWf {s : State} (hx : 1 ≤ s.cfg.xlen) (h : dataWf s = true) (l : Text)
    (values : List Int) : dataWf (appendData s l values) = true := by
  obtain ⟨hmem, hbases⟩ := dataWf_iff.mp h
  refine dataWf_iff.mpr ⟨appendData_keeps_wf hx hmem, fun e he => ?_⟩
  rw [appendData_dmem, List.length_append]
  obtain he | rfl := mem_put he
  · exact (hbases e he).trans (Nat.le_add_right _ _)
  · exact Nat.le_add_right _ _

theorem registerData_keeps_dataWf {s : State} (hx : 1 ≤ s.cfg.xlen) (h : dataWf s = true)
    (program : List Instr) : dataWf (registerData program s) = true :=
  (registerData_keeps (P := fun u => 1 ≤ u.cfg.xlen ∧ dataWf u = true)
    (fun _ l values hu => ⟨hu.1, appendData_keeps_dataWf hu.1 hu.2 l values⟩) program ⟨hx, h⟩).2

/-- A program of admitted length, installed with its start within it, keeps the invariant. -/
theorem installProgram_keeps_wf {s : State} (h : s.wf = true) {program : List Instr} {m : Nat}
    (hfits : (program.length : Int) ≤ maxVal s.cfg.xlen) (hm : m < program.length) :
    (installProgram program (m + 1) s).wf = true := by
  obtain ⟨hc, hregs, -, hdata, hpred⟩ := state_wf_iff.mp h
  obtain ⟨hlen, hall, -, hrest⟩ := registersWf_iff.mp hregs
  have hstart := wrap_start_of_fits hm hfits
  have hx : 1 ≤ s.cfg.xlen := by have := two_le_xlen_of_valid hc; omega
  rw [installProgram_eq]
  refine state_wf_iff.mpr ⟨hc, registersWf_iff.mpr ⟨hlen, hall, inRange_wrap hc _, hrest⟩,
    programWf_iff.mpr ⟨?_, ?_, hfits, ?_, hm⟩, ?_, hpred⟩
  · exact (Int.natCast_nonneg _).trans_eq hstart.symm
  · exact hstart.trans_le (Int.ofNat_le.mpr hm)
  · simpa using codeLabels_lt (program := program) (k := 0) (m := []) nofun
  · have hregistered := registerData_keeps_dataWf
      (s := { s with prog := program, textStart := m + 1 }) hx hdata program
    rw [registerData_frame] at hregistered
    exact hregistered

/-- Settles O43: a load installs a program that passed its checks in the block after its reset. -/
theorem loadAndResetKeepTheInvariant : Obligations.LoadAndResetKeepTheInvariant := by
  intro s t program hs
  refine ⟨resetBlock_keeps_wf hs, fun h => ?_⟩
  obtain ⟨m, hfits, hfind, -, -, rfl⟩ := load_next h
  obtain ⟨hm, -⟩ := List.findIdx?_eq_some_iff_getElem.mp hfind
  exact installProgram_keeps_wf (resetBlock_keeps_wf hs) hfits hm

/-! ### LOAD (46_cpu.md R283) -/

/-- The decoder's one error names the line (30_encoding.md R103). -/
theorem parse_of_toOption_none {mnemonics : List Text} {line : Text}
    (h : (parse mnemonics line).toOption = none) :
    parse mnemonics line = .error (.noPattern line) := by
  cases hr : recognize mnemonics (trimBlanks line) with
  | some i => rw [parse, hr] at h; cases h
  | none => rw [parse, hr]

theorem parse_of_toOption_some {mnemonics : List Text} {line : Text} {i : Instr}
    (h : (parse mnemonics line).toOption = some i) : parse mnemonics line = .ok i := by
  cases hp : parse mnemonics line with
  | ok j => rw [hp] at h; cases h; rfl
  | error e => rw [hp] at h; cases h

/-- Lines that all decode give their records, in order. -/
theorem parseLines_of_all {mnemonics : List Text} {lines : List Text} {program : List Instr}
    (h : lines.map (fun l => (parse mnemonics l).toOption) = program.map some) :
    parseLines mnemonics lines = .ok program := by
  induction lines generalizing program with
  | nil => rw [List.map_eq_nil_iff.mp h.symm]; rfl
  | cons line rest ih =>
    cases program with
    | nil => cases h
    | cons i program =>
      obtain ⟨hline, hrest⟩ := List.cons.inj h
      simp [parseLines, parse_of_toOption_some hline, ih hrest]

/-- Of lines that do not all decode the first that fails is the error. -/
theorem parseLines_of_first_failing {mnemonics : List Text} {before rest : List Text} {line : Text}
    (hbefore : ∀ l ∈ before, (parse mnemonics l).toOption.isSome = true)
    (hline : (parse mnemonics line).toOption = none) :
    parseLines mnemonics (before ++ line :: rest) = .error (.noPattern line) := by
  induction before with
  | nil => simp [parseLines, parse_of_toOption_none hline]
  | cons l before ih =>
    obtain ⟨hl, hbefore⟩ := List.forall_mem_cons.mp hbefore
    obtain ⟨i, hi⟩ := Option.isSome_iff_exists.mp hl
    simp [parseLines, parse_of_toOption_some hi, ih hbefore]

/-- Settles O56: LOAD is `load` after the decoding of the lines kept. -/
theorem loadDecodesTheLinesInOrder : Obligations.LoadDecodesTheLinesInOrder := by
  intro lines kept s hkept
  have hsource : sourceLines lines = kept := hkept.symm
  refine ⟨fun program hall => ?_, fun before rest line hsplit hbefore hline => ?_⟩
  · rw [loadLines, hsource, parseLines_of_all hall]
  · rw [loadLines, hsource, hsplit, parseLines_of_first_failing hbefore hline]
    rfl

end Sys2Proof.Proofs
end

/-! ## Which error a line raises, and which register error first: O29, O32, O33 -/

section
namespace Sys2Proof.Proofs

open Sys2Proof Sys2Proof.Machine

/-! ### Error kinds -/

/-- Settles O29: an unknown operation raises before anything of it is read, and of the errors a line
can raise, UnknownOperation is an unknown operation's alone. -/
theorem unknownOperationsAloneRaiseUnknownOperation :
    Obligations.UnknownOperationsAloneRaiseUnknownOperation := by
  refine ⟨fun _ _ _ _ => rfl, fun i s opcode h => ?_⟩
  cases exec_lineRaises h with
  | unknownOperation hi => exact ⟨_, _, hi⟩

/-- An admitted configuration declares both system-call registers (00_scope.md R8). -/
theorem namesRegister_systemRegister {c : Config} {name : Text} (hc : c.valid = true)
    (hname : name = c.sysArgReg ∨ name = c.sysResReg) : namesRegister c (.sym name) = true := by
  simp only [Config.valid, Bool.and_eq_true] at hc
  obtain ⟨⟨⟨-, harg⟩, hres⟩, -⟩ := hc
  obtain rfl | rfl := hname
  · simp only [namesRegister, harg, Bool.or_true]
  · simp only [namesRegister, hres, Bool.or_true]

theorem LineRaises.unknownRegister_op {i : Instr} {s : State} {o : Operand}
    (h : LineRaises i s (.unknownRegister o)) :
    ∃ id, i.operation?.map Prod.fst = some id ∧ 1 ≤ id ∧ id ≠ 37 ∧
      (s.cfg.valid = true → id ≤ 36) := by
  cases h with
  | unknownRegister _ hreg =>
    obtain ⟨id, l, ops, hop, hlo, hhi⟩ := hreg
    exact ⟨id, by rw [hop]; rfl, hlo, by omega, fun _ => hhi⟩
  | systemRegister hname hnot hop =>
    have hinvalid (hc : s.cfg.valid = true) : False :=
      Bool.false_ne_true (hnot.symm.trans (namesRegister_systemRegister hc hname))
    simp only [List.mem_cons, List.not_mem_nil, or_false] at hop
    obtain hid | hid | hid | hid := hop <;>
      exact ⟨_, hid, by decide, by decide, fun hc => (hinvalid hc).elim⟩

/-- Settles O33: every line has a meaning, and the errors of a line are those of its op id. -/
theorem stepErrorsComeFromTheirInstructions :
    Obligations.StepErrorsComeFromTheirInstructions := by
  intro i s
  refine ⟨exec_not_refused i s, fun e h => ?_⟩
  have hraises := exec_lineRaises h
  cases e with
  | unknownRegister o => exact hraises.unknownRegister_op
  | badOperands =>
    cases hraises with
    | badOperands hop => exact Option.isSome_iff_ne_none.mp hop
  | decodeError | missingTextSection | emptyProgram | duplicateLabel => cases hraises
  | unknownLabel | addressOutOfRange | notImplemented | divideByZero | inputNeverAnswers =>
    cases hraises
    assumption
  | unknownOperation opcode =>
    cases hraises with
    | unknownOperation hi => exact ⟨_, _, hi⟩

/-! ### Which register error comes first (60_exceptions.md R313) -/

theorem exists_readReg {s : State} {o : Operand} (h : namesRegister s.cfg o = true) :
    ∃ a, readReg s o = .ok a :=
  ((registerAccessIsByNameAndFramed s o 0).1 h).2.1

theorem readReg_of_not_namesRegister {s : State} {o : Operand}
    (h : namesRegister s.cfg o = false) : readReg s o = .error (.unknownRegister o) :=
  (access_of_not_namesRegister 0 h).2

theorem writeReg_of_not_namesRegister {s : State} {o : Operand} (v : Int)
    (h : namesRegister s.cfg o = false) : writeReg s o v = .error (.unknownRegister o) :=
  (access_of_not_namesRegister v h).1

theorem readReg_bind_of_not_namesRegister {α : Type} {s : State} {o : Operand}
    (h : namesRegister s.cfg o = false) (k : Int → Except Fault α) :
    (readReg s o).bind k = .error (.unknownRegister o) := by
  rw [readReg_of_not_namesRegister h, error_bind]

/-- Of the operands `o₁` and `o₂` the first that names no register is the one raised. -/
def RaisesInOrder (c : Config) (raises : Operand → Prop) (o₁ o₂ : Operand) : Prop :=
  (namesRegister c o₁ = false → raises o₁) ∧
  (namesRegister c o₁ = true → namesRegister c o₂ = false → raises o₂)

theorem RaisesInOrder.imp {c : Config} {p q : Operand → Prop} {o₁ o₂ : Operand}
    (h : RaisesInOrder c p o₁ o₂) (hpq : ∀ o, p o → q o) : RaisesInOrder c q o₁ o₂ :=
  ⟨fun h₁ => hpq o₁ (h.1 h₁), fun h₁ h₂ => hpq o₂ (h.2 h₁ h₂)⟩

/-- A read of `o₁`, and after it something that fails where `o₂` names no register. -/
theorem readReg_bind_raisesInOrder {α : Type} {s : State} {o₁ o₂ : Operand}
    {k : Int → Except Fault α}
    (hk : namesRegister s.cfg o₂ = false → ∀ a, k a = .error (.unknownRegister o₂)) :
    RaisesInOrder s.cfg (fun o => (readReg s o₁).bind k = .error (.unknownRegister o)) o₁ o₂ := by
  refine ⟨fun h₁ => ?_, fun h₁ h₂ => ?_⟩
  · exact readReg_bind_of_not_namesRegister h₁ k
  · obtain ⟨a, ha⟩ := exists_readReg h₁
    rw [ha, ok_bind, hk h₂]

theorem read_write_raisesInOrder (s : State) (o₁ o₂ : Operand) (v : Int → Int) :
    RaisesInOrder s.cfg (fun o => (readReg s o₁).bind (fun a => writeReg s o₂ (v a)) =
      .error (.unknownRegister o)) o₁ o₂ :=
  readReg_bind_raisesInOrder fun h₂ _ => writeReg_of_not_namesRegister _ h₂

theorem read_read_raisesInOrder {α : Type} (s : State) (o₁ o₂ : Operand)
    (k : Int → Int → Except Fault α) :
    RaisesInOrder s.cfg (fun o => (readReg s o₁).bind (fun a => (readReg s o₂).bind (k a)) =
      .error (.unknownRegister o)) o₁ o₂ :=
  readReg_bind_raisesInOrder fun h₂ a => readReg_bind_of_not_namesRegister h₂ (k a)

/-! #### The execution of each format -/

/-- The one computation of format FR3 that can fail is the division of `div`, op id 4, by zero
(41_alu.md R154). -/
def Computes (id : Nat) (g : Int → Int → Except Fault Int) : Prop :=
  ∃ v : Int → Int → Int, ∀ a b, g a b =
    if id = 4 ∧ b = 0 then .error .divideByZero else .ok (v a b)

theorem computes_of_ne {id : Nat} (hid : id ≠ 4) (v : Int → Int → Int) :
    Computes id fun a b => .ok (v a b) :=
  ⟨v, fun _ _ => (if_neg fun h => hid h.1).symm⟩

theorem computes_div (round : DivRound) :
    Computes 4 fun a b => if b = 0 then .error .divideByZero else .ok (quotient round a b) :=
  ⟨quotient round, fun a b => by simp⟩

/-- How line `i`, an operation with op id `id` and operands `ops`, executes in each format whose
operands are registers (30_encoding.md R106). -/
inductive ExecutesAs (i : Instr) (s : State) (id : Nat) (ops : List Operand) : Format → Prop where
  | fr3 {g : Int → Int → Except Fault Int} (hg : Computes id g)
      (h : exec i s = complete (alu3 g ops s)) : ExecutesAs i s id ops .fr3
  | fi {g : Int → Int → Int} (h : exec i s = complete (aluImm g ops s)) : ExecutesAs i s id ops .fi
  | fr2 {g : Int → Int} (h : exec i s = complete (unary g ops s)) : ExecutesAs i s id ops .fr2
  | frs2 {k : Int → Int → Except Fault State}
      (h : exec i s = complete ((format2 ops).bind fun p =>
        (readReg s p.1).bind fun a => (readReg s p.2).bind (k a))) : ExecutesAs i s id ops .frs2
  | fb {g : Int → Int → Bool} (h : exec i s = branchStep (compareRegs g ops s) s) :
      ExecutesAs i s id ops .fb
  | fr1Write {v : Int} (h : exec i s = complete ((format1 ops).bind fun r => writeReg s r v)) :
      ExecutesAs i s id ops .fr1
  | fr1Read {k : Int → Except Fault State}
      (h : exec i s = complete ((format1 ops).bind fun r => (readReg s r).bind k)) :
      ExecutesAs i s id ops .fr1
  | fri {v : Operand × Int → Int}
      (h : exec i s = complete ((formatFRI ops).bind fun p => writeReg s p.1 (v p))) :
      ExecutesAs i s id ops .fri

theorem exec_executesAs {i : Instr} {id : Nat} {l : Option Text} {ops : List Operand} {f : Format}
    (s : State) (hop : i.operation? = some (id, l, ops)) (hf : formats[id]? = some f)
    (hregs : f ∈ [Format.fr3, .fi, .fr2, .frs2, .fb, .fr1, .fri]) :
    ExecutesAs i s id ops f := by
  cases i with
  | sectionLine _ | spaceLine _ _ | wordLine _ _ | labelLine _ | unknownOp _ _ _ => cases hop
  | nop | lw | sw | la | j | printInt | printChar | readInt | readChar | exit =>
    cases hop; cases hf
    exact absurd hregs (by decide)
  | add | sub | and | or | xor | slt | sllv | srlv | srav =>
    cases hop; cases hf
    exact .fr3 (computes_of_ne (by decide) _) rfl
  | div => cases hop; cases hf; exact .fr3 (computes_div s.cfg.divRound) rfl
  | addi | andi | ori | xori | slti | sll | srl | sra => cases hop; cases hf; exact .fi rfl
  | not | move => cases hop; cases hf; exact .fr2 rfl
  | mult => cases hop; cases hf; exact .frs2 rfl
  | li | lui => cases hop; cases hf; exact .fri rfl
  | mfhi | mflo => cases hop; cases hf; exact .fr1Write rfl
  | mthi | mtlo => cases hop; cases hf; exact .fr1Read rfl
  | beq | bne | bgt | bge | blt | ble => cases hop; cases hf; exact .fb rfl

/-! #### The obligation -/

/-- Where the two sources can be read, `div` fails at a zero divisor before its destination is
touched; every other three-register operation fails at the destination. -/
theorem complete_alu3_not_namesRegister {id : Nat} {g : Int → Int → Except Fault Int} {s : State}
    {rd rs rt : Operand} (hg : Computes id g) (hs : namesRegister s.cfg rs = true)
    (ht : namesRegister s.cfg rt = true) (hd : namesRegister s.cfg rd = false) :
    complete (alu3 g [rd, rs, rt] s) = .fault
      (if id = 4 ∧ readReg s rt = .ok 0 then .divideByZero else .unknownRegister rd) := by
  obtain ⟨a, ha⟩ := exists_readReg hs
  obtain ⟨b, hb⟩ := exists_readReg ht
  obtain ⟨v, hv⟩ := hg
  have hzero : readReg s rt = .ok 0 ↔ b = 0 := by rw [hb, Except.ok.injEq]
  simp only [hzero]
  split
  next h => exact complete_alu3_fault rd ha hb ((hv a b).trans (if_pos h))
  next h =>
    have hgv : g a b = .ok (v a b) := (hv a b).trans (if_neg h)
    simp [alu3, format3, ha, hb, hgv, writeReg_of_not_namesRegister _ hd]

/-- A line that executes as `x` raises what `x` raises. -/
theorem exec_fault_of_complete {i : Instr} {s : State} {x : Except Fault State} {e : Fault}
    (h : exec i s = complete x) (hx : x = .error e) : exec i s = .fault e :=
  h.trans (complete_fault.mpr hx)

theorem exec_fault_of_branchStep {i : Instr} {s : State} {x : Except Fault (Bool × Operand)}
    {e : Fault} (h : exec i s = branchStep x s) (hx : x = .error e) : exec i s = .fault e := by
  rw [h, hx]
  rfl

/-- Settles O32: a line executes as its format does, and in that execution the operands are read and
written one after the other. -/
theorem registerErrorsComeInOrder : Obligations.RegisterErrorsComeInOrder := by
  intro i s id l f x y z k hf
  refine ⟨?fr3, ?fi, ?fr2, ?frs2, ?fb, ?fr1, ?fri, ?lw, ?sw, ?la⟩
  case fr3 =>
    rintro rfl hop
    cases exec_executesAs s hop hf (by decide) with
    | fr3 hg h =>
      obtain ⟨hy, hz⟩ := (read_read_raisesInOrder s y z _).imp fun _ => exec_fault_of_complete h
      exact ⟨hy, hz, fun hy hz hx => h.trans (complete_alu3_not_namesRegister hg hy hz hx)⟩
  case fi =>
    rintro rfl hop
    cases exec_executesAs s hop hf (by decide) with
    | fi h => exact (read_write_raisesInOrder s y x _).imp fun _ => exec_fault_of_complete h
  case fr2 =>
    rintro rfl hop
    cases exec_executesAs s hop hf (by decide) with
    | fr2 h => exact (read_write_raisesInOrder s y x _).imp fun _ => exec_fault_of_complete h
  case frs2 =>
    rintro rfl hop
    cases exec_executesAs s hop hf (by decide) with
    | frs2 h => exact (read_read_raisesInOrder s x y _).imp fun _ => exec_fault_of_complete h
  case fb =>
    rintro rfl hop
    cases exec_executesAs s hop hf (by decide) with
    | fb h => exact (read_read_raisesInOrder s x y _).imp fun _ => exec_fault_of_branchStep h
  case fr1 =>
    rintro rfl hop hx
    cases exec_executesAs s hop hf (by decide) with
    | fr1Write h => exact exec_fault_of_complete h (writeReg_of_not_namesRegister _ hx)
    | fr1Read h =>
      exact exec_fault_of_complete h (readReg_bind_of_not_namesRegister hx _)
  case fri =>
    rintro rfl hop hx
    cases exec_executesAs s hop hf (by decide) with
    | fri h => exact exec_fault_of_complete h (writeReg_of_not_namesRegister _ hx)
  case lw =>
    rintro rfl
    refine ⟨fun hy => ?_, fun base hbase h0 hlt hx => ?_⟩
    · exact exec_fault_of_complete rfl (readReg_bind_of_not_namesRegister hy _)
    · rw [exec_lw l x k hbase, memRead_of_inData (inData_iff.mpr ⟨h0, hlt⟩), ok_bind,
        writeReg_of_not_namesRegister _ hx, complete_error]
  case sw =>
    rintro rfl
    exact (read_read_raisesInOrder s x y _).imp fun _ => exec_fault_of_complete rfl
  case la =>
    rintro name base rfl hbase hx
    rw [exec_la, lookupLabel_of_lookup hbase, ok_bind, writeReg_of_not_namesRegister _ hx,
      complete_error]

end Sys2Proof.Proofs
end
